-- ==== Sys2Proof/Word.lean ====
section
/-! DEFINITION. The word types of the link and of the counters. -/

namespace Sys2Proof

/-- One byte of a frame: an address, a kind, a tag, a code. -/
abbrev Byte := BitVec 8

/-- A 16-bit word: a sample index, a sequence number, the generation, a check sequence. -/
abbrev Half := BitVec 16

/-- A 32-bit counter, counting modulo 2³² (R68, R159, R177). -/
abbrev Count := BitVec 32

end Sys2Proof
end

