-- ==== Sys2Proof/Syntax.lean ====
section
/-! DEFINITION. The commands of the L16 (one constructor of `Instr` per row of spec/opcode_table.json) and the
plain data that they carry: profiles, policies, management requests and frames. -/

namespace Sys2Proof

/-- The two link ports (R163). -/
inductive PortName where
  | cPort
  | dPort
  deriving DecidableEq, Repr

/-- The bank that a table read names (10.4). -/
inductive BankName where
  | active
  | shadow
  deriving DecidableEq, Repr

/-- The counter group that READ_COUNTERS names (R158). -/
inductive CounterGroup where
  | port
  | monitor
  deriving DecidableEq, Repr

/-- The motion group of a profile record (R3). -/
structure MotionGroup where
  peakDrop : Nat
  valleyRise : Nat
  reactionMin : Nat
  reactionMax : Nat
  travelMin : Nat
  travelMax : Nat
  deriving DecidableEq, Repr

/-- The measure group of a profile record (R4). -/
structure MeasureGroup where
  window : Nat
  rMin : Nat
  rMax : Nat
  deriving DecidableEq, Repr

/-- A profile record: the core of R2 and the two optional groups. -/
structure Profile where
  openLevel : Nat
  openDeadline : Nat
  hitLevel : Nat
  hitDeadline : Nat
  ocLevel : Nat
  settle : Nat
  gapLimit : Nat
  lockAfter : Nat
  motion : Option MotionGroup
  measure : Option MeasureGroup
  deriving DecidableEq, Repr

/-- The policy record (R8). -/
structure Policy where
  driverAddress : Byte
  sinkAddress : Byte
  retransmitMs : Nat
  silenceMs : Nat
  supplyLow : Nat
  supplyOk : Nat
  deriving DecidableEq, Repr

/-- A frame that has passed the size and length checks of R164: the header of 10.1, whose length field is the
length of `payload`, and the check sequence it travels with. -/
structure Frame where
  kind : Byte
  destination : Byte
  source : Byte
  sequence : Byte
  payload : List Byte
  crc : Half
  deriving DecidableEq, Repr

/-- A well-formed management request: its kind and its arguments (10.4). -/
inductive Request where
  | identify
  | readChannel (channel : Byte)
  | readProfile (bank : BankName) (slot : Byte)
  | readMap (bank : BankName)
  | readPolicy (bank : BankName)
  | readCounters (group : CounterGroup) (clear : Bool)
  | openSession
  | writeProfile (slot : Byte) (profile : Profile)
  | clearProfile (slot : Byte)
  | writeMap (entries : Vector Byte 16)
  | writePolicy (policy : Policy)
  | commit
  | closeSession
  | unlockChannel (channel : Byte)
  | ackReports (number : Half)
  | warmRestart
  deriving DecidableEq, Repr

/-- The commands: one constructor per row of the table. A management request carries the source address and the
tag of its frame beside its arguments (R139). -/
inductive Instr where
  | coldReset (straps : BitVec 3)
  | linkLossD
  | linkLossC
  | linkReturn (port : PortName)
  | cPortReceipt (bytes : List Byte)
  | dPortReceipt (bytes : List Byte)
  | judgedDeparture
  | dPortDeparture
  | injectedDeparture
  | responseDeparture
  | reportDeparture
  | ufqDeparture
  | transmissionComplete (port : PortName)
  | silenceExpiry
  | retransmitExpiry
  | leaseExpiry
  | identify (source tag : Byte)
  | readChannel (source tag channel : Byte)
  | readProfile (source tag : Byte) (bank : BankName) (slot : Byte)
  | readMap (source tag : Byte) (bank : BankName)
  | readPolicy (source tag : Byte) (bank : BankName)
  | readCounters (source tag : Byte) (group : CounterGroup) (clear : Bool)
  | openSession (source tag : Byte)
  | writeProfile (source tag slot : Byte) (profile : Profile)
  | clearProfile (source tag slot : Byte)
  | writeMap (source tag : Byte) (entries : Vector Byte 16)
  | writePolicy (source tag : Byte) (policy : Policy)
  | commit (source tag : Byte)
  | closeSession (source tag : Byte)
  | unlockChannel (source tag channel : Byte)
  | ackReports (source tag : Byte) (number : Half)
  | warmRestart (source tag : Byte)
  deriving DecidableEq, Repr

/-- The request that a request row carries, with its source and tag. -/
def Instr.request? : Instr → Option (Byte × Byte × Request)
  | .identify src tag => some (src, tag, .identify)
  | .readChannel src tag channel => some (src, tag, .readChannel channel)
  | .readProfile src tag bank slot => some (src, tag, .readProfile bank slot)
  | .readMap src tag bank => some (src, tag, .readMap bank)
  | .readPolicy src tag bank => some (src, tag, .readPolicy bank)
  | .readCounters src tag group clear => some (src, tag, .readCounters group clear)
  | .openSession src tag => some (src, tag, .openSession)
  | .writeProfile src tag slot profile => some (src, tag, .writeProfile slot profile)
  | .clearProfile src tag slot => some (src, tag, .clearProfile slot)
  | .writeMap src tag entries => some (src, tag, .writeMap entries)
  | .writePolicy src tag policy => some (src, tag, .writePolicy policy)
  | .commit src tag => some (src, tag, .commit)
  | .closeSession src tag => some (src, tag, .closeSession)
  | .unlockChannel src tag channel => some (src, tag, .unlockChannel channel)
  | .ackReports src tag number => some (src, tag, .ackReports number)
  | .warmRestart src tag => some (src, tag, .warmRestart)
  | .coldReset _ => none
  | .linkLossD => none
  | .linkLossC => none
  | .linkReturn _ => none
  | .cPortReceipt _ => none
  | .dPortReceipt _ => none
  | .judgedDeparture => none
  | .dPortDeparture => none
  | .injectedDeparture => none
  | .responseDeparture => none
  | .reportDeparture => none
  | .ufqDeparture => none
  | .transmissionComplete _ => none
  | .silenceExpiry => none
  | .retransmitExpiry => none
  | .leaseExpiry => none

end Sys2Proof
end

