-- ==== Sys2Proof/Decode.lean ====
section
/-! DEFINITION. From bytes to frames and requests, and back: byte order, the check sequence (R180), the checks at
receipt (R164), the management requests (10.4), and `decodeTableWord`, which answers none because no row of
spec/opcode_table.json gives bits. -/

namespace Sys2Proof

/-- The command that a word spells by the bits of spec/opcode_table.json. The table gives no row any bits, so no
word spells a command (log entry 17). -/
def decodeTableWord (_nbits _w : Nat) : Option Instr := none

/-- A two-byte field, most significant byte first (10). -/
def bytes2 (n : Nat) : List Byte := [BitVec.ofNat 8 (n / 256), BitVec.ofNat 8 n]

/-- A four-byte field, most significant byte first (10). -/
def bytes4 (n : Nat) : List Byte :=
  [BitVec.ofNat 8 (n / 16777216), BitVec.ofNat 8 (n / 65536), BitVec.ofNat 8 (n / 256), BitVec.ofNat 8 n]

/-- The number of a two-byte field. -/
def nat2 (hi lo : Byte) : Nat := hi.toNat * 256 + lo.toNat

/-- The number of a four-byte field. -/
def nat4 (a b c d : Byte) : Nat := nat2 a b * 65536 + nat2 c d

/-- The word of a two-byte field. -/
def half2 (hi lo : Byte) : Half := BitVec.ofNat 16 (nat2 hi lo)

/-- The signed number of a two-byte field, two's complement (10). -/
def int2 (hi lo : Byte) : Int := (half2 hi lo).toInt

/-- A signed two-byte field (10). -/
def bytes2Signed (i : Int) : List Byte := bytes2 (BitVec.ofInt 16 i).toNat

/-- One step of the check sequence: shift, and combine the polynomial 1021H when the bit shifted out differs from
the data bit (R180). -/
def crcBit (r : Half) (bit : Bool) : Half :=
  if r.msb != bit then (r <<< 1) ^^^ 0x1021#16 else r <<< 1

/-- One byte of the check sequence, most significant bit first (R180). -/
def crcByte (r : Half) (b : Byte) : Half :=
  [7, 6, 5, 4, 3, 2, 1, 0].foldl (fun r k => crcBit r (b.getLsbD k)) r

/-- The check sequence of further bytes, from a register value (R180). The register is matched as a number, so that
the kernel settles it byte by byte. -/
def crcFrom : List Byte → Nat → Half
  | [], n => BitVec.ofNat 16 n
  | b :: rest, 0 => crcFrom rest (crcByte 0 b).toNat
  | b :: rest, n + 1 => crcFrom rest (crcByte (BitVec.ofNat 16 (n + 1)) b).toNat

/-- The check sequence of the header and payload bytes: initial value FFFFH, no final inversion (R180). -/
@[irreducible] def crc16 (bytes : List Byte) : Half := crcFrom bytes 0xFFFF

/-- The kind codes of 10.1. -/
def Frame.commandKind : Byte := 0x01#8
def Frame.sampleKind : Byte := 0x02#8
def Frame.requestKind : Byte := 0x04#8
def Frame.responseKind : Byte := 0x05#8
def Frame.reportKind : Byte := 0x06#8

/-- Header and payload of a frame, in the order they stand (10.1). -/
def Frame.body (f : Frame) : List Byte :=
  f.kind :: f.destination :: f.source :: f.sequence :: BitVec.ofNat 8 f.payload.length :: f.payload

/-- A frame as it stands on the line: header, payload, check sequence high byte first (10.1). -/
def Frame.bytes (f : Frame) : List Byte := f.body ++ bytes2 f.crc.toNat

/-- The same frame with its check sequence computed by the L16 (R180). -/
def Frame.withCrc (f : Frame) : Frame := { f with crc := crc16 f.body }

/-- A frame that the L16 builds itself (R93, R124, R139). -/
def Frame.build (kind destination source sequence : Byte) (payload : List Byte) : Frame :=
  Frame.withCrc { kind, destination, source, sequence, payload, crc := 0 }

/-- What the checks of R164 find in the bytes received between two delimiters. -/
inductive FrameCheck where
  /-- Fewer than 7 or more than 103 bytes: not CRC-valid, a length error. -/
  | badSize
  /-- The check sequence differs: a CRC error. -/
  | badCrc
  /-- CRC-valid, and the length field is wrong: a length error. -/
  | badLength
  /-- A valid frame. -/
  | valid (f : Frame)
  deriving DecidableEq, Repr

/-- The checks at receipt, in the order of R164. -/
def checkFrame (bytes : List Byte) : FrameCheck :=
  if bytes.length < 7 || 103 < bytes.length then .badSize
  else
    let body := bytes.take (bytes.length - 2)
    match bytes.drop (bytes.length - 2), body with
    | [hi, lo], kind :: destination :: source :: sequence :: len :: payload =>
      if crc16 body != half2 hi lo then .badCrc
      else if 96 < len.toNat || len.toNat != bytes.length - 7 then .badLength
      else .valid { kind, destination, source, sequence, payload, crc := half2 hi lo }
    | _, _ => .badSize

/-- The request-kind byte of a request (10.4). -/
def Request.code : Request → Byte
  | .identify => 0x01#8
  | .readChannel _ => 0x02#8
  | .readProfile _ _ => 0x03#8
  | .readMap _ => 0x04#8
  | .readPolicy _ => 0x05#8
  | .readCounters _ _ => 0x06#8
  | .openSession => 0x07#8
  | .writeProfile _ _ => 0x08#8
  | .clearProfile _ => 0x09#8
  | .writeMap _ => 0x0A#8
  | .writePolicy _ => 0x0B#8
  | .commit => 0x0C#8
  | .closeSession => 0x0D#8
  | .unlockChannel _ => 0x0E#8
  | .ackReports _ => 0x0F#8
  | .warmRestart => 0x10#8

/-- The bank selector of 10.4. -/
def BankName.code : BankName → Byte
  | .active => 0x00#8
  | .shadow => 0x01#8

def BankName.ofCode (b : Byte) : Option BankName :=
  if b = 0x00#8 then some .active else if b = 0x01#8 then some .shadow else none

/-- The group selector of 10.4. -/
def CounterGroup.code : CounterGroup → Byte
  | .port => 0x00#8
  | .monitor => 0x01#8

def CounterGroup.ofCode (b : Byte) : Option CounterGroup :=
  if b = 0x00#8 then some .port else if b = 0x01#8 then some .monitor else none

/-- A flag byte: the clear flag and the two group-presence flags (10.4). -/
def flagByte (b : Bool) : Byte := if b then 0x01#8 else 0x00#8

def flagOfByte (b : Byte) : Option Bool :=
  if b = 0x00#8 then some false else if b = 0x01#8 then some true else none

/-- The motion group as 10.4 encodes it: nothing when absent. -/
def motionBytes : Option MotionGroup → List Byte
  | none => []
  | some m => bytes2 m.peakDrop ++ bytes2 m.valleyRise ++ bytes2 m.reactionMin ++ bytes2 m.reactionMax ++
      bytes2 m.travelMin ++ bytes2 m.travelMax

/-- The measure group as 10.4 encodes it: nothing when absent. -/
def measureBytes : Option MeasureGroup → List Byte
  | none => []
  | some m => BitVec.ofNat 8 m.window :: bytes4 m.rMin ++ bytes4 m.rMax

/-- The core and the present groups of a profile record (10.4). -/
def Profile.fieldBytes (p : Profile) : List Byte :=
  bytes2 p.openLevel ++ [BitVec.ofNat 8 p.openDeadline] ++ bytes2 p.hitLevel ++ bytes2 p.hitDeadline ++
    bytes2 p.ocLevel ++ [BitVec.ofNat 8 p.settle, BitVec.ofNat 8 p.gapLimit, BitVec.ofNat 8 p.lockAfter] ++
    motionBytes p.motion ++ measureBytes p.measure

/-- The two presence flags and then the fields, as WRITE_PROFILE carries and READ_PROFILE returns them (10.4, 10.5).
-/
def Profile.bytes (p : Profile) : List Byte :=
  flagByte p.motion.isSome :: flagByte p.measure.isSome :: p.fieldBytes

/-- The policy record (10.4). -/
def Policy.bytes (p : Policy) : List Byte :=
  p.driverAddress :: p.sinkAddress :: bytes2 p.retransmitMs ++ [BitVec.ofNat 8 p.silenceMs] ++
    bytes2 p.supplyLow ++ bytes2 p.supplyOk

/-- Reads the motion group, if it is declared present, from the front. -/
def readMotion : Bool → List Byte → Option (Option MotionGroup × List Byte)
  | false, bytes => some (none, bytes)
  | true, a₁ :: a₀ :: b₁ :: b₀ :: c₁ :: c₀ :: d₁ :: d₀ :: e₁ :: e₀ :: f₁ :: f₀ :: rest =>
    some (some
      { peakDrop := nat2 a₁ a₀, valleyRise := nat2 b₁ b₀, reactionMin := nat2 c₁ c₀, reactionMax := nat2 d₁ d₀
        travelMin := nat2 e₁ e₀, travelMax := nat2 f₁ f₀ }, rest)
  | true, _ => none

/-- Reads the measure group, if it is declared present; nothing may follow it, so that the length is the one the
flags fix (R183). -/
def readMeasure : Bool → List Byte → Option (Option MeasureGroup)
  | false, [] => some none
  | true, [w, a₃, a₂, a₁, a₀, b₃, b₂, b₁, b₀] =>
    some (some { window := w.toNat, rMin := nat4 a₃ a₂ a₁ a₀, rMax := nat4 b₃ b₂ b₁ b₀ })
  | _, _ => none

/-- Reads the core and the groups that the two flags declare (R183). -/
def readProfile (motion measure : Bool) : List Byte → Option Profile
  | a₁ :: a₀ :: b :: c₁ :: c₀ :: d₁ :: d₀ :: e₁ :: e₀ :: s :: g :: l :: rest =>
    match readMotion motion rest with
    | some (m, rest) =>
      (readMeasure measure rest).map fun r =>
        { openLevel := nat2 a₁ a₀, openDeadline := b.toNat, hitLevel := nat2 c₁ c₀, hitDeadline := nat2 d₁ d₀
          ocLevel := nat2 e₁ e₀, settle := s.toNat, gapLimit := g.toNat, lockAfter := l.toNat
          motion := m, measure := r }
    | none => none
  | _ => none

/-- The arguments of a request after its kind byte (10.4). -/
def Request.arguments : Request → List Byte
  | .identify => []
  | .readChannel channel => [channel]
  | .readProfile bank slot => [bank.code, slot]
  | .readMap bank => [bank.code]
  | .readPolicy bank => [bank.code]
  | .readCounters group clear => [group.code, flagByte clear]
  | .openSession => []
  | .writeProfile slot profile => slot :: profile.bytes
  | .clearProfile slot => [slot]
  | .writeMap entries => entries.toList
  | .writePolicy policy => policy.bytes
  | .commit => []
  | .closeSession => []
  | .unlockChannel channel => [channel]
  | .ackReports number => bytes2 number.toNat
  | .warmRestart => []

/-- The payload of a MGMT_REQUEST frame: the encoder (10.4). -/
def Request.payload (r : Request) : List Byte := r.code :: r.arguments

/-- The form check of R141 and R183: the request a payload spells, or none where the request is malformed and
answered BAD_REQUEST. -/
def decodeRequest : List Byte → Option Request
  | [] => none
  | kind :: arguments =>
    match kind.toNat, arguments with
    | 0x01, [] => some .identify
    | 0x02, [channel] => some (.readChannel channel)
    | 0x03, [bank, slot] => (BankName.ofCode bank).map fun b => .readProfile b slot
    | 0x04, [bank] => (BankName.ofCode bank).map .readMap
    | 0x05, [bank] => (BankName.ofCode bank).map .readPolicy
    | 0x06, [group, clear] =>
      match CounterGroup.ofCode group, flagOfByte clear with
      | some g, some c => some (.readCounters g c)
      | _, _ => none
    | 0x07, [] => some .openSession
    | 0x08, slot :: motion :: measure :: fields =>
      match flagOfByte motion, flagOfByte measure with
      | some m, some r => (readProfile m r fields).map (.writeProfile slot)
      | _, _ => none
    | 0x09, [slot] => some (.clearProfile slot)
    | 0x0A, entries => if h : entries.length = 16 then some (.writeMap ⟨entries.toArray, by simpa using h⟩) else none
    | 0x0B, [driver, sink, r₁, r₀, t, l₁, l₀, o₁, o₀] =>
      some (.writePolicy
        { driverAddress := driver, sinkAddress := sink, retransmitMs := nat2 r₁ r₀, silenceMs := t.toNat
          supplyLow := nat2 l₁ l₀, supplyOk := nat2 o₁ o₀ })
    | 0x0C, [] => some .commit
    | 0x0D, [] => some .closeSession
    | 0x0E, [channel] => some (.unlockChannel channel)
    | 0x0F, [hi, lo] => some (.ackReports (half2 hi lo))
    | 0x10, [] => some .warmRestart
    | _, _ => none

/-- The MGMT_REQUEST frame that carries a request from a source to the L16 at `own` (R139, 10.4). -/
def requestFrame (own source tag : Byte) (r : Request) : Frame :=
  Frame.build Frame.requestKind own source tag r.payload

end Sys2Proof
end

