-- ==== Sys2Proof/Config.lean ====
section
/-! DEFINITION. What the spec leaves open for a whole run: one free value. -/

namespace Sys2Proof

/-- FREE VALUE (log entry 7). Where events of the part's own coincide, the spec lets any be taken first (R42, R81,
R129, R179). `freeOrder k` says, modulo their number, which one is taken at the `k`-th such meeting. It has no body,
so nothing can be proved of its value. -/
opaque Config.freeOrder : Nat → Nat

end Sys2Proof
end

