-- ==== Sys2Proof/Machine/State.lean ====
section
/-! DEFINITION. The state of the L16 as plain data: every block's registers, queues, counters and timers, the queue of
waiting commands, the two kinds of stop, and the state after cold reset. INVENTORY.md lists each field with its rule.
-/

namespace Sys2Proof.Machine

/-- The stops of the machine itself: none. No rule of the spec stops the L16; a bad frame, request or command is
dropped, counted or answered (log entry 18). Raised by nobody, so safe. -/
inductive Fault where
  deriving DecidableEq, Repr

/-- What the model refuses. -/
inductive Refusal where
  /-- A command whose meaning is not written yet, by its mnemonic. Raised only by an arm of `exec`; safe. Every
  command has its meaning, so no arm raises it. -/
  | notModelled (mnemonic : String)
  deriving DecidableEq, Repr

/-- A channel number, 0 to 15 (R22). -/
abbrev ChannelId := Fin 16

/-- A profile slot, 0 to 31 (1.1). -/
abbrev SlotIndex := Fin 32

/-- A complete set of tables (1.1): EMPTY slots and NONE map entries are `none`. -/
structure Bank where
  slots : Vector (Option Profile) 32
  map : Vector (Option SlotIndex) 16
  policy : Policy
  deriving DecidableEq, Repr

/-- The session (R146): the holder, the ticks left of the lease, and SHADOW, which exists exactly while a session is
held (R11; log entry 13). -/
structure Session where
  holder : Byte
  lease : Nat
  shadow : Bank
  deriving DecidableEq, Repr

/-- The disposition of a channel (R22): OPEN, TRIPPED or LOCKED. -/
inductive Disposition where
  | open_
  | tripped
  | locked
  deriving DecidableEq, Repr

/-- A channel's own copy of its profile, with the slot and the generation it was taken under (1.9). -/
structure Snapshot where
  profile : Profile
  index : SlotIndex
  generation : Half
  deriving DecidableEq, Repr

/-- A current in mA at a sample index: a running extreme, a peak or a valley (R43). -/
structure Mark where
  index : Half
  current : Int
  deriving DecidableEq, Repr

/-- The phase of an episode (R43). -/
inductive Phase where
  | ramp
  | dip
  | climb
  | settle
  | measure
  deriving DecidableEq, Repr

/-- The context of an open episode: the table of R43. -/
structure Episode where
  phase : Phase
  cmdIndex : Half
  elapsed : Nat
  seen : Nat
  gap : Nat
  runningMax : Option Mark
  peak : Option Mark
  runningMin : Option Mark
  valley : Option Mark
  openSeen : Bool
  hit : Option Half
  settleCount : Nat
  sumCurrent : Int
  sumVoltage : Nat
  measureCount : Nat
  deriving DecidableEq, Repr

/-- The context of one channel (R22 to R24, R40, R68, R69). -/
structure Channel where
  disposition : Disposition
  energized : Bool
  pendingInjection : Bool
  snapshot : Option Snapshot
  episode : Option Episode
  failCount : Nat
  opened : Count
  passed : Count
  failed : Count
  neutral : Count
  trips : Count
  deriving DecidableEq, Repr

/-- The supply state (R100). -/
inductive SupplyState where
  | ok
  | low
  deriving DecidableEq, Repr

/-- The driver activity (R100). -/
inductive Activity where
  | silent
  | active
  deriving DecidableEq, Repr

/-- The sample observer (R100). The silence timer is stopped, or holds the ticks left to its expiry (R102). -/
structure Observer where
  reference : Option Half
  supply : SupplyState
  activity : Activity
  silenceTimer : Option Nat
  deriving DecidableEq, Repr

/-- The fifteen named results of an episode (R66, 10.6). -/
inductive EpisodeOutcome where
  | pass
  | noMotion
  | earlyMotion
  | travelShort
  | travelLong
  | hitMissed
  | openLoad
  | overcurrent
  | resLow
  | resHigh
  | releasedEarly
  | superseded
  | voidGap
  | voidSupply
  | voidSilent
  deriving DecidableEq, Repr

/-- The class of an outcome (R66). -/
inductive OutcomeClass where
  | pass
  | fail
  | neutral
  deriving DecidableEq, Repr

/-- The valley with the reaction and travel that go with it (R76). -/
structure ValleyGroup where
  mark : Mark
  reaction : Nat
  travel : Nat
  deriving DecidableEq, Repr

/-- The contents of a VERDICT record (R75, R76). -/
structure Verdict where
  channel : ChannelId
  outcome : EpisodeOutcome
  profileIndex : SlotIndex
  generation : Half
  cmdIndex : Half
  elapsed : Nat
  gap : Nat
  failCount : Nat
  peak : Option Mark
  valley : Option ValleyGroup
  hit : Option Half
  resistance : Option Nat
  deriving DecidableEq, Repr

/-- The contents of a TRIP record (R89). -/
structure Trip where
  channel : ChannelId
  sampleIndex : Half
  current : Int
  profileIndex : SlotIndex
  generation : Half
  failCount : Nat
  deriving DecidableEq, Repr

/-- A report record: its kind and contents (R116). -/
inductive Record where
  | verdict (v : Verdict)
  | trip (t : Trip)
  | locked (channel : ChannelId) (failCount : Nat) (profileIndex : SlotIndex) (generation : Half)
  | unlocked (channel : ChannelId)
  | blocked (channel : ChannelId) (count : Nat)
  | malformed (count : Nat)
  | supplyLow (supply : Nat)
  | supplyOk (supply : Nat)
  | driverSilent
  | driverBack
  | generation (value : Half)
  | sessionLapsed (holder : Byte)
  | restarted (generation : Half)
  | loss (count : Nat)
  deriving DecidableEq, Repr

/-- A record of the send window with its sequence number (R116, R118). -/
structure SentRecord where
  number : Half
  record : Record
  deriving DecidableEq, Repr

/-- The state of the report sender (R122). -/
inductive SenderState where
  | noSink
  | ready
  | stalled
  deriving DecidableEq, Repr

/-- The report queue and its sender (chapter 7). The list in creation order is `window` followed by `unsent`: every
record with a sequence number stands before every record without one (R118). -/
structure ReportQueue where
  window : List SentRecord
  unsent : List Record
  cursor : Nat
  nextSequence : Half
  lossCount : Nat
  retryCount : Nat
  retransmitTimer : Option Nat
  sender : SenderState
  deriving DecidableEq, Repr

/-- An entry of the reply cache (R143). -/
structure CacheEntry where
  source : Byte
  tag : Byte
  response : Frame
  deriving DecidableEq, Repr

/-- A link port: its link state, the frame in transmission, and its counters (R163, R172, R177). -/
structure Port where
  up : Bool
  sending : Option Frame
  received : Count
  crcError : Count
  lengthError : Count
  ingressFull : Count
  egressFlushed : Count
  transmitted : Count
  abandoned : Count
  linkDown : Count
  deriving DecidableEq, Repr

/-- The last-served marker of the C-port arbiter (R170). -/
inductive Marker where
  | report
  | forward
  deriving DecidableEq, Repr

/-- The sources of the D-port arbiter: the injection unit's offer and the DFQ head (R168). -/
inductive DSource where
  | injection
  | queueHead
  deriving DecidableEq, Repr

/-- The sources of the C-port arbiter: the response queue head, the report sender's offer and the UFQ head (R170). -/
inductive CSource where
  | response
  | report
  | forward
  deriving DecidableEq, Repr

/-- The thirteen monitor counters, in the order of R159. -/
structure Monitor where
  blockedEntry : Count
  malformedCommand : Count
  injectedFrame : Count
  malformedSample : Count
  duplicateSample : Count
  resync : Count
  reportFrame : Count
  staleAck : Count
  requestExecuted : Count
  requestDropped : Count
  replay : Count
  replayDropped : Count
  responseDiscarded : Count
  deriving DecidableEq, Repr

/-- The whole state of the L16. `cache` stands most recently used first; `dSelected` and `cSelected` are the sources
that the two arbiters have selected and whose departure is left to its row (R96, R168, R170; log entry 3); `freeCount`
counts the free orders taken and is the model's own (log entry 7); `pending` is the queue of waiting commands, first
in, first out (log entry 17). -/
structure State where
  ownAddress : Byte
  active : Bank
  generation : Half
  session : Option Session
  channels : Vector Channel 16
  observer : Observer
  injectionCounter : Byte
  report : ReportQueue
  cache : List CacheEntry
  responses : List Frame
  dfq : List Frame
  ufq : List Frame
  cPort : Port
  dPort : Port
  misaddressed : Count
  marker : Marker
  dSelected : Option DSource
  cSelected : Option CSource
  monitor : Monitor
  freeCount : Nat
  pending : List Instr
  deriving DecidableEq, Repr

/-- The policy defaults (R1, R8). -/
def defaultPolicy : Policy where
  driverAddress := 0x01#8
  sinkAddress := 0x00#8
  retransmitMs := 50
  silenceMs := 20
  supplyLow := 0
  supplyOk := 0

/-- The ACTIVE bank after cold reset (R1). -/
def Bank.reset : Bank where
  slots := Vector.replicate 32 none
  map := Vector.replicate 16 none
  policy := defaultPolicy

/-- A channel context after cold reset (R39, R65, R84). -/
def Channel.reset : Channel where
  disposition := .open_
  energized := false
  pendingInjection := false
  snapshot := none
  episode := none
  failCount := 0
  opened := 0
  passed := 0
  failed := 0
  neutral := 0
  trips := 0

/-- The sample observer after cold reset (R100) and after warm restart (R113). -/
def Observer.reset : Observer where
  reference := none
  supply := .ok
  activity := .silent
  silenceTimer := none

/-- The report queue after cold reset (R135). -/
def ReportQueue.reset : ReportQueue where
  window := []
  unsent := []
  cursor := 0
  nextSequence := 1
  lossCount := 0
  retryCount := 0
  retransmitTimer := none
  sender := .noSink

/-- A port after cold reset: DOWN until its receiver synchronizes (R163, R178). -/
def Port.reset : Port where
  up := false
  sending := none
  received := 0
  crcError := 0
  lengthError := 0
  ingressFull := 0
  egressFlushed := 0
  transmitted := 0
  abandoned := 0
  linkDown := 0

/-- The monitor counters after cold reset (R159). -/
def Monitor.reset : Monitor where
  blockedEntry := 0
  malformedCommand := 0
  injectedFrame := 0
  malformedSample := 0
  duplicateSample := 0
  resync := 0
  reportFrame := 0
  staleAck := 0
  requestExecuted := 0
  requestDropped := 0
  replay := 0
  replayDropped := 0
  responseDiscarded := 0

/-- The L16 right after cold reset: every block at the values of its own chapter (R1, R39, R65, R84, R98, R100, R135,
R162, R178). The own address is that of straps reading 0 (DESIGN CHOICE, unsafe, log entry 1). -/
def State.reset : State where
  ownAddress := 0x70#8
  active := Bank.reset
  generation := 0
  session := none
  channels := Vector.replicate 16 Channel.reset
  observer := Observer.reset
  injectionCounter := 0
  report := ReportQueue.reset
  cache := []
  responses := []
  dfq := []
  ufq := []
  cPort := Port.reset
  dPort := Port.reset
  misaddressed := 0
  marker := .forward
  dSelected := none
  cSelected := none
  monitor := Monitor.reset
  freeCount := 0
  pending := []

end Sys2Proof.Machine
end

