-- ==== Sys2Proof/Machine/Flags.lean ====
section
/-! DEFINITION. Flags computed from the state: the FAULT_N pin (R38), the flag and presence bytes of READ_CHANNEL and
of VERDICT (10.5, 10.6), and the numeric codes of named states. -/

namespace Sys2Proof.Machine

/-- FAULT_N is driven low while a channel is TRIPPED or LOCKED, or the sender is STALLED (R38). It follows the state
at every event, so it is computed and not stored (log entry 9). -/
def State.faultLow (s : State) : Bool :=
  s.channels.toList.any (fun c => c.disposition != .open_) || s.report.sender == .stalled

/-- One byte from up to four flags, bit 0 first; the unused bits are 0 (R184). -/
def flagBits (b₀ b₁ b₂ b₃ : Bool) : Byte :=
  BitVec.ofNat 8 (b₀.toNat + 2 * b₁.toNat + 4 * b₂.toNat + 8 * b₃.toNat)

/-- The flags byte of READ_CHANNEL (10.5). -/
def Channel.flags (c : Channel) : Byte :=
  flagBits c.energized c.pendingInjection c.snapshot.isSome c.episode.isSome

/-- The episode presence byte of READ_CHANNEL (10.5). -/
def Episode.presence (e : Episode) : Byte := flagBits e.peak.isSome e.valley.isSome e.hit.isSome false

/-- The presence byte of a VERDICT record (10.6). -/
def Verdict.presence (v : Verdict) : Byte :=
  flagBits v.peak.isSome v.valley.isSome v.hit.isSome v.resistance.isSome

/-- Disposition codes (10.5). -/
def Disposition.code : Disposition → Byte
  | .open_ => 0x00#8
  | .tripped => 0x01#8
  | .locked => 0x02#8

/-- Phase codes (10.5). -/
def Phase.code : Phase → Byte
  | .ramp => 0x01#8
  | .dip => 0x02#8
  | .climb => 0x03#8
  | .settle => 0x04#8
  | .measure => 0x05#8

/-- Sender state codes (10.5). -/
def SenderState.code : SenderState → Byte
  | .noSink => 0x00#8
  | .ready => 0x01#8
  | .stalled => 0x02#8

/-- Supply state codes (10.5). -/
def SupplyState.code : SupplyState → Byte
  | .ok => 0x00#8
  | .low => 0x01#8

/-- Driver activity codes (10.5). -/
def Activity.code : Activity → Byte
  | .silent => 0x00#8
  | .active => 0x01#8

/-- Outcome codes (10.6). -/
def EpisodeOutcome.code : EpisodeOutcome → Byte
  | .pass => 0x00#8
  | .noMotion => 0x10#8
  | .earlyMotion => 0x11#8
  | .travelShort => 0x12#8
  | .travelLong => 0x13#8
  | .hitMissed => 0x14#8
  | .openLoad => 0x15#8
  | .overcurrent => 0x16#8
  | .resLow => 0x17#8
  | .resHigh => 0x18#8
  | .releasedEarly => 0x20#8
  | .superseded => 0x21#8
  | .voidGap => 0x22#8
  | .voidSupply => 0x23#8
  | .voidSilent => 0x24#8

/-- The class of an outcome (R66). -/
def EpisodeOutcome.outcomeClass : EpisodeOutcome → OutcomeClass
  | .pass => .pass
  | .noMotion => .fail
  | .earlyMotion => .fail
  | .travelShort => .fail
  | .travelLong => .fail
  | .hitMissed => .fail
  | .openLoad => .fail
  | .overcurrent => .fail
  | .resLow => .fail
  | .resHigh => .fail
  | .releasedEarly => .neutral
  | .superseded => .neutral
  | .voidGap => .neutral
  | .voidSupply => .neutral
  | .voidSilent => .neutral

/-- The link state byte (10.5). -/
def Port.linkByte (p : Port) : Byte := flagByte p.up

end Sys2Proof.Machine
end

