-- ==== Sys2Proof/Machine/Operands.lean ====
section
/-! DEFINITION. The payload forms that the L16 reads beside requests: COMMAND payloads (R27, R181) and SAMPLE payloads
(R105, R182). -/

namespace Sys2Proof.Machine

/-- One entry of a COMMAND payload (10.2). -/
structure CommandEntry where
  channel : ChannelId
  action : Nat
  argument : Byte
  deriving DecidableEq, Repr

/-- The action codes of 10.2; every other code is OTHER (R28). -/
def energizeAction : Nat := 1
def releaseAction : Nat := 2

/-- The channel stands in the high four bits of an entry's first byte, the action in the low four (R181). -/
def CommandEntry.ofBytes (first argument : Byte) : CommandEntry where
  channel := ⟨first.toNat / 16, by have := first.isLt; omega⟩
  action := first.toNat % 16
  argument := argument

/-- The two bytes of an entry (10.2). -/
def CommandEntry.bytes (e : CommandEntry) : List Byte :=
  [BitVec.ofNat 8 (e.channel.val * 16 + e.action), e.argument]

/-- The entries of a list of bytes, two bytes each; none for a half entry. -/
def readEntries : List Byte → Option (List CommandEntry)
  | [] => some []
  | [_] => none
  | first :: argument :: rest => (readEntries rest).map (CommandEntry.ofBytes first argument :: ·)

/-- The form check of R27: the entries of a well-formed COMMAND payload, or none for a malformed one. -/
def readCommand : List Byte → Option (List CommandEntry)
  | [] => none
  | n :: rest =>
    if rest.length = 2 * n.toNat ∧ 1 ≤ n.toNat ∧ n.toNat ≤ 16 then
      match readEntries rest with
      | some entries => if (entries.map CommandEntry.channel).Nodup then some entries else none
      | none => none
    else none

/-- The payload that carries a list of entries (10.2). -/
def commandPayload (entries : List CommandEntry) : List Byte :=
  BitVec.ofNat 8 entries.length :: entries.flatMap CommandEntry.bytes

/-- The channels in ascending order (R45). -/
def allChannels : List ChannelId := [0, 1, 2, 3, 4, 5, 6, 7, 8, 9, 10, 11, 12, 13, 14, 15]

/-- A channel's entry in a SAMPLE frame: its signed current in mA and its drive voltage in mV (R45). -/
structure SampleEntry where
  current : Int
  voltage : Nat
  deriving DecidableEq, Repr

/-- A well-formed SAMPLE payload (10.3): entries in ascending channel order. -/
structure Sample where
  index : Half
  supply : Nat
  entries : List (ChannelId × SampleEntry)
  deriving DecidableEq, Repr

/-- The channel's entry, if the frame carries one (R45). -/
def Sample.entry? (m : Sample) (ch : ChannelId) : Option SampleEntry := m.entries.lookup ch

/-- The channels named in a channel set, in ascending order (R182). -/
def channelsOf (set : Half) : List ChannelId := allChannels.filter fun ch => set.getLsbD ch.val

/-- Gives each named channel its four bytes, in order (R182). -/
def readSampleEntries : List ChannelId → List Byte → List (ChannelId × SampleEntry)
  | ch :: rest, c₁ :: c₀ :: v₁ :: v₀ :: bytes =>
    (ch, { current := int2 c₁ c₀, voltage := nat2 v₁ v₀ }) :: readSampleEntries rest bytes
  | _, _ => []

/-- The form check of R105: the length is 6 + 4k, with k the number of channels named. -/
def readSample : List Byte → Option Sample
  | i₁ :: i₀ :: s₁ :: s₀ :: c₁ :: c₀ :: rest =>
    let named := channelsOf (half2 c₁ c₀)
    if rest.length = 4 * named.length then
      some { index := half2 i₁ i₀, supply := nat2 s₁ s₀, entries := readSampleEntries named rest }
    else none
  | _ => none

end Sys2Proof.Machine
end

