-- ==== Sys2Proof/Machine/Ops.lean ====
section
/-! DEFINITION. The shared operations on the stores of the L16: the channel contexts, the report queue (R117 to R136),
the forward queues (R167) and the transmitters (R172). -/

namespace Sys2Proof.Machine

/-! Channel contexts. -/

/-- The context of one channel. -/
def State.channel (s : State) (ch : ChannelId) : Channel := s.channels[ch.val]

/-- The same state with one channel's context replaced. -/
def State.setChannel (s : State) (ch : ChannelId) (c : Channel) : State :=
  { s with channels := s.channels.set ch.val c }

/-- Some channel has its injection pending: the injection unit's offer stands (R92). -/
def State.injectionOffered (s : State) : Bool := allChannels.any fun ch => (s.channel ch).pendingInjection

/-! The report queue. -/

/-- The places of the report queue (R118). -/
def queueCapacity : Nat := 48

/-- The largest send window (R118). -/
def windowCapacity : Nat := 8

/-- The number of records held, sent and unsent (R118). -/
def ReportQueue.total (q : ReportQueue) : Nat := q.window.length + q.unsent.length

/-- A handed record coalesces with a waiting one: BLOCKED of the same channel, or MALFORMED (R119). -/
def Record.coalesces : Record → Record → Bool
  | .blocked c _, .blocked d _ => c == d
  | .malformed _, .malformed _ => true
  | _, _ => false

/-- The count of a BLOCKED or MALFORMED record raised by one, saturating at 255 (R119). -/
def Record.raise : Record → Record
  | .blocked ch n => .blocked ch (min 255 (n + 1))
  | .malformed n => .malformed (min 255 (n + 1))
  | r => r

/-- The unsent records with the count of the record that the handed one coalesces with raised, if there is one
(R119). -/
def coalesceInto (r : Record) : List Record → Option (List Record)
  | [] => none
  | x :: xs => if r.coalesces x then some (x.raise :: xs) else (coalesceInto r xs).map (x :: ·)

/-- A VERDICT record with outcome PASS: the one kind that may be evicted (R120). -/
def Record.isPass : Record → Bool
  | .verdict v => v.outcome == .pass
  | _ => false

/-- The unsent records without the oldest PASS VERDICT, if there is one (R120, R186). -/
def evictPass : List Record → Option (List Record)
  | [] => none
  | x :: xs => if x.isPass then some xs else (evictPass xs).map (x :: ·)

/-- One loss more, saturating at 65535 (R120). -/
def ReportQueue.countLoss (q : ReportQueue) : ReportQueue := { q with lossCount := min 65535 (q.lossCount + 1) }

/-- Places one handed record: coalesced (R119), at the back, in the place of an evicted PASS VERDICT, or discarded
(R120). The cursor keeps its value (R186). -/
def ReportQueue.place (q : ReportQueue) (r : Record) : ReportQueue :=
  match coalesceInto r q.unsent with
  | some unsent => { q with unsent }
  | none =>
    if q.total < queueCapacity then { q with unsent := q.unsent ++ [r] }
    else
      match evictPass q.unsent with
      | some unsent => { q.countLoss with unsent := unsent ++ [r] }
      | none => q.countLoss

/-- The check that ends every event at the report queue: a LOSS record takes a free place when losses were counted
(R121; log entry 11). -/
def ReportQueue.settleLoss (q : ReportQueue) : ReportQueue :=
  if q.lossCount ≠ 0 ∧ q.total < queueCapacity then
    { q with unsent := q.unsent ++ [.loss q.lossCount], lossCount := 0 }
  else q

/-- A producer hands a group of records (R117). -/
def ReportQueue.hand (q : ReportQueue) : List Record → ReportQueue
  | [] => q
  | records => (records.foldl ReportQueue.place q).settleLoss

/-- The same state after the records are handed to the report queue. -/
def State.hand (s : State) (records : List Record) : State := { s with report := s.report.hand records }

/-- The record at the cursor, with its number if it has one: a record of the window, or the first unsent record when
the cursor stands behind the window (R123). -/
def ReportQueue.atCursor (q : ReportQueue) : Option (Option Half × Record) :=
  match q.window[q.cursor]? with
  | some sent => some (some sent.number, sent.record)
  | none => if q.cursor = q.window.length then q.unsent.head?.map fun r => (none, r) else none

/-- The record the sender offers: in READY, with the cursor below 8, the record at the cursor (R123). -/
def ReportQueue.offer (q : ReportQueue) : Option (Option Half × Record) :=
  if q.sender = .ready ∧ q.cursor < windowCapacity then q.atCursor else none

/-- The first unsent record takes the next sequence number and joins the window; the timer starts if the window was
empty (R124, R125, R126). -/
def ReportQueue.number (q : ReportQueue) (retransmitMs : Nat) : ReportQueue :=
  match q.unsent with
  | [] => q
  | r :: rest =>
    { q with
      window := q.window ++ [⟨q.nextSequence, r⟩]
      unsent := rest
      nextSequence := q.nextSequence + 1
      retransmitTimer := if q.window.isEmpty then some retransmitMs else q.retransmitTimer }

/-- The departure of the offered record: numbered if it is new, and the cursor advances (R124). -/
def ReportQueue.depart (q : ReportQueue) (retransmitMs : Nat) : ReportQueue :=
  let numbered := if q.cursor < q.window.length then q else q.number retransmitMs
  ReportQueue.settleLoss { numbered with cursor := q.cursor + 1 }

/-- The expiry of the retransmit timer: go back (R127), or stall at the sixth (R128). -/
def ReportQueue.expire (q : ReportQueue) (retransmitMs : Nat) : ReportQueue :=
  if q.retryCount < 5 then
    ReportQueue.settleLoss
      { q with retryCount := q.retryCount + 1, cursor := 0, retransmitTimer := some retransmitMs }
  else ReportQueue.settleLoss { q with sender := .stalled, retransmitTimer := none }

/-- The acknowledgement of number `a`: the queue of R130, or none where `a` names no record of the window (R131). -/
def ReportQueue.acknowledge (q : ReportQueue) (a : Half) (retransmitMs : Nat) : Option ReportQueue :=
  (q.window.findIdx? fun sent => sent.number == a).map fun k =>
    let window := q.window.drop (k + 1)
    ReportQueue.settleLoss
      { q with
        window
        cursor := q.cursor - (k + 1)
        retryCount := 0
        sender := if q.sender = .stalled then .ready else q.sender
        retransmitTimer := if window.isEmpty then none else some retransmitMs }

/-- A commit that changes the sink address: NO_SINK for 00H (R133), otherwise READY with the window sent again from
its front (R134). -/
def ReportQueue.changeSink (q : ReportQueue) (sink : Byte) (retransmitMs : Nat) : ReportQueue :=
  if sink = 0x00#8 then
    ReportQueue.settleLoss { q with sender := .noSink, cursor := 0, retryCount := 0, retransmitTimer := none }
  else
    ReportQueue.settleLoss
      { q with
        sender := .ready
        cursor := 0
        retryCount := 0
        retransmitTimer := if q.window.isEmpty then none else some retransmitMs }

/-- The queue after a warm restart, with RESTARTED as its one record (R136). -/
def ReportQueue.restart (sink : Byte) (generation : Half) : ReportQueue :=
  { ReportQueue.reset with
    unsent := [.restarted generation]
    sender := if sink = 0x00#8 then .noSink else .ready }

/-! Ports and forward queues. -/

/-- The places of a forward queue (R167). -/
def forwardCapacity : Nat := 8

/-- The places of the response queue (R145). -/
def responseCapacity : Nat := 4

/-- The entries of the reply cache (R143). -/
def cacheCapacity : Nat := 4

/-- The port can start a transmission: UP and its transmitter free (R168, R170). -/
def Port.ready (p : Port) : Bool := p.up && p.sending.isNone

/-- A frame offered to the DFQ (R167). -/
def State.offerDfq (s : State) (f : Frame) : State :=
  if s.dfq.length < forwardCapacity then { s with dfq := s.dfq ++ [f] }
  else { s with cPort := { s.cPort with ingressFull := s.cPort.ingressFull + 1 } }

/-- A frame offered to the UFQ (R167). -/
def State.offerUfq (s : State) (f : Frame) : State :=
  if s.ufq.length < forwardCapacity then { s with ufq := s.ufq ++ [f] }
  else { s with dPort := { s.dPort with ingressFull := s.dPort.ingressFull + 1 } }

/-- A frame enters transmission on the D-port (R172). -/
def State.sendD (s : State) (f : Frame) : State := { s with dPort := { s.dPort with sending := some f } }

/-- A frame enters transmission on the C-port (R172). -/
def State.sendC (s : State) (f : Frame) : State := { s with cPort := { s.cPort with sending := some f } }

/-- Completion of a transmission (R172). -/
def Port.complete (p : Port) : Port := { p with sending := none, transmitted := p.transmitted + 1 }

/-- Link loss at a port, with the number of forward-queue frames it flushes: DOWN, counted, the transmission
abandoned, the flushed frames counted (R173, R174, R175). -/
def Port.lose (p : Port) (flushed : Nat) : Port :=
  { p with
    up := false
    linkDown := p.linkDown + 1
    sending := none
    abandoned := if p.sending.isSome then p.abandoned + 1 else p.abandoned
    egressFlushed := p.egressFlushed + BitVec.ofNat 32 flushed }

/-- The port's counters at 0, its link state and transmission kept (R158, R177). -/
def Port.clearCounters (p : Port) : Port := { Port.reset with up := p.up, sending := p.sending }

end Sys2Proof.Machine
end

