-- ==== Sys2Proof/Machine/Layout.lean ====
section
/-! DEFINITION. The bytes the L16 writes: report records (10.6) and the results of management responses (10.5). -/

namespace Sys2Proof.Machine

/-- The one byte of a small number. -/
def byteOf (n : Nat) : Byte := BitVec.ofNat 8 n

/-- A two-byte field holding a word. -/
def halfBytes (h : Half) : List Byte := bytes2 h.toNat

/-- A four-byte field holding a counter. -/
def countBytes (c : Count) : List Byte := bytes4 c.toNat

/-- A mark as a peak or valley field: index and current (10.6). -/
def Mark.bytes (m : Mark) : List Byte := halfBytes m.index ++ bytes2Signed m.current

/-- A field that is left out when absent (R185). -/
def optionalBytes {α : Type} (field : α → List Byte) : Option α → List Byte
  | some a => field a
  | none => []

/-- The valley group of a VERDICT record (10.6). -/
def ValleyGroup.bytes (g : ValleyGroup) : List Byte := g.mark.bytes ++ bytes2 g.reaction ++ bytes2 g.travel

/-- The contents of a VERDICT record: the fixed fields, the presence byte, and the fields present (10.6, R185). -/
def Verdict.bytes (v : Verdict) : List Byte :=
  [byteOf v.channel.val, v.outcome.code, byteOf v.profileIndex.val] ++ halfBytes v.generation ++
    halfBytes v.cmdIndex ++ bytes2 v.elapsed ++ bytes2 v.gap ++ [byteOf v.failCount, v.presence] ++
    optionalBytes Mark.bytes v.peak ++ optionalBytes ValleyGroup.bytes v.valley ++ optionalBytes halfBytes v.hit ++
    optionalBytes bytes4 v.resistance

/-- The contents of a TRIP record (10.6). -/
def Trip.bytes (t : Trip) : List Byte :=
  [byteOf t.channel.val] ++ halfBytes t.sampleIndex ++ bytes2Signed t.current ++ [byteOf t.profileIndex.val] ++
    halfBytes t.generation ++ [byteOf t.failCount]

/-- The record kind code (10.6). -/
def Record.code : Record → Byte
  | .verdict _ => 0x01#8
  | .trip _ => 0x02#8
  | .locked _ _ _ _ => 0x03#8
  | .unlocked _ => 0x04#8
  | .blocked _ _ => 0x05#8
  | .malformed _ => 0x06#8
  | .supplyLow _ => 0x07#8
  | .supplyOk _ => 0x08#8
  | .driverSilent => 0x09#8
  | .driverBack => 0x0A#8
  | .generation _ => 0x0B#8
  | .sessionLapsed _ => 0x0C#8
  | .restarted _ => 0x0D#8
  | .loss _ => 0x0E#8

/-- The contents of a record (10.6). -/
def Record.contents : Record → List Byte
  | .verdict v => v.bytes
  | .trip t => t.bytes
  | .locked ch failCount index gen =>
    [byteOf ch.val, byteOf failCount, byteOf index.val] ++ halfBytes gen
  | .unlocked ch => [byteOf ch.val]
  | .blocked ch count => [byteOf ch.val, byteOf count]
  | .malformed count => [byteOf count]
  | .supplyLow supply => bytes2 supply
  | .supplyOk supply => bytes2 supply
  | .driverSilent => []
  | .driverBack => []
  | .generation value => halfBytes value
  | .sessionLapsed holder => [holder]
  | .restarted gen => halfBytes gen
  | .loss count => bytes2 count

/-- The payload of a REPORT frame: number, kind, contents (10.6). -/
def reportPayload (number : Half) (r : Record) : List Byte := halfBytes number ++ r.code :: r.contents

/-- The REPORT frame of a record: the low byte of the number stands in the header (R124). -/
def reportFrame (own sink : Byte) (number : Half) (r : Record) : Frame :=
  Frame.build Frame.reportKind sink own (byteOf number.toNat) (reportPayload number r)

/-- An absent two-byte field is written as 0 (R184). -/
def halfOrZero : Option Half → List Byte
  | some h => halfBytes h
  | none => [0, 0]

/-- The snapshot fields of READ_CHANNEL (10.5). -/
def snapshotBytes : Option Snapshot → List Byte
  | some sn => byteOf sn.index.val :: halfBytes sn.generation
  | none => [0, 0, 0]

/-- The episode fields of READ_CHANNEL: 16 bytes, 0 without an episode (10.5, R184). -/
def episodeBytes : Option Episode → List Byte
  | some e =>
    e.phase.code :: halfBytes e.cmdIndex ++ bytes2 e.elapsed ++ bytes2 e.seen ++ bytes2 e.gap ++ [e.presence] ++
      halfOrZero (e.peak.map Mark.index) ++ halfOrZero (e.valley.map Mark.index) ++ halfOrZero e.hit
  | none => List.replicate 16 0

/-- The channel context as READ_CHANNEL returns it (R153, 10.5). -/
def Channel.bytes (c : Channel) (ch : ChannelId) : List Byte :=
  [byteOf ch.val, c.disposition.code, c.flags] ++ snapshotBytes c.snapshot ++ [byteOf c.failCount] ++
    countBytes c.opened ++ countBytes c.passed ++ countBytes c.failed ++ countBytes c.neutral ++ countBytes c.trips ++
    episodeBytes c.episode

/-- A slot as READ_PROFILE returns it (10.5). -/
def slotBytes : Option Profile → List Byte
  | none => [0x00#8]
  | some p => 0x01#8 :: p.bytes

/-- A channel map entry: a profile index, or FFH for NONE (10.4). -/
def mapByte : Option SlotIndex → Byte
  | some slot => byteOf slot.val
  | none => 0xFF#8

/-- The counters of a port behind length-error, in the order of 10.5. -/
def Port.tailBytes (p : Port) : List Byte :=
  countBytes p.ingressFull ++ countBytes p.egressFlushed ++ countBytes p.transmitted ++ countBytes p.abandoned ++
    countBytes p.linkDown

/-- The first three counters of a port (10.5). -/
def Port.headBytes (p : Port) : List Byte :=
  countBytes p.received ++ countBytes p.crcError ++ countBytes p.lengthError

/-- The PORT group (10.5). -/
def State.portGroup (s : State) : List Byte :=
  [s.cPort.linkByte, s.dPort.linkByte, byteOf s.dfq.length, byteOf s.ufq.length] ++ s.cPort.headBytes ++
    countBytes s.misaddressed ++ s.cPort.tailBytes ++ s.dPort.headBytes ++ s.dPort.tailBytes

/-- The monitor counters in the order of R159. -/
def Monitor.bytes (m : Monitor) : List Byte :=
  countBytes m.blockedEntry ++ countBytes m.malformedCommand ++ countBytes m.injectedFrame ++
    countBytes m.malformedSample ++ countBytes m.duplicateSample ++ countBytes m.resync ++ countBytes m.reportFrame ++
    countBytes m.staleAck ++ countBytes m.requestExecuted ++ countBytes m.requestDropped ++ countBytes m.replay ++
    countBytes m.replayDropped ++ countBytes m.responseDiscarded

/-- The queue figures that the monitor group returns (R138, 10.5). -/
def ReportQueue.figures (q : ReportQueue) : List Byte :=
  [byteOf q.total, byteOf q.window.length] ++ halfBytes q.nextSequence ++ bytes2 q.lossCount ++ [byteOf q.retryCount]

/-- The observer's state as the monitor group returns it (R115, 10.5). -/
def Observer.figures (o : Observer) : List Byte :=
  flagByte o.reference.isSome :: halfOrZero o.reference ++ [o.supply.code, o.activity.code]

/-- The MONITOR group (10.5). -/
def State.monitorGroup (s : State) : List Byte :=
  s.monitor.bytes ++ s.report.figures ++ s.observer.figures

end Sys2Proof.Machine
end

