-- ==== Sys2Proof/Machine/Episode.lean ====
section
/-! DEFINITION. One episode and one accepted frame: the opening context (R43), the five steps of R46, the phases
(R52 to R60), the deadlines (R61) and the resistance check (R73, R74). -/

namespace Sys2Proof.Machine

/-- The context of a new episode (R43). -/
def Episode.start (p : Profile) (reference : Half) : Episode where
  phase := if p.motion.isSome then .ramp else .climb
  cmdIndex := reference
  elapsed := 0
  seen := 0
  gap := 0
  runningMax := none
  peak := none
  runningMin := none
  valley := none
  openSeen := false
  hit := none
  settleCount := 0
  sumCurrent := 0
  sumVoltage := 0
  measureCount := 0

/-- The sample periods from index `a` to index `b`, modulo 65536 (R47, R56). -/
def periods (a b : Half) : Nat := (b - a).toNat

/-- What a frame does to an open episode. -/
inductive EpisodeStep where
  /-- The episode stays open. -/
  | stays (e : Episode)
  /-- The episode closes with an outcome, and with the resistance if the check computed one (R62, R73). -/
  | closes (e : Episode) (outcome : EpisodeOutcome) (resistance : Option Nat)
  /-- The entry reaches oc_level: the channel trips (R49). -/
  | trips (e : Episode)
  deriving DecidableEq, Repr

/-- Step 1: the counts (R47; log entry 14). -/
def Episode.count (e : Episode) (x : Half) (present : Bool) : Episode :=
  let elapsed := periods e.cmdIndex x
  let seen := if present then e.seen + 1 else e.seen
  { e with elapsed, seen, gap := elapsed - seen }

/-- The level comparisons that begin step 4 (R51). -/
def Episode.trackLevels (e : Episode) (p : Profile) (x : Half) (current : Int) : Episode :=
  { e with
    openSeen := e.openSeen || decide ((p.openLevel : Int) ≤ current)
    hit := if e.hit.isNone ∧ (p.hitLevel : Int) ≤ current then some x else e.hit }

/-- The running maximum after an entry; a tie keeps the earlier index (R53). -/
def newMax (held : Option Mark) (x : Half) (current : Int) : Mark :=
  match held with
  | some m => if m.current < current then ⟨x, current⟩ else m
  | none => ⟨x, current⟩

/-- The running minimum after an entry; a tie keeps the earlier index (R55). -/
def newMin (held : Option Mark) (x : Half) (current : Int) : Mark :=
  match held with
  | some m => if current < m.current then ⟨x, current⟩ else m
  | none => ⟨x, current⟩

/-- The step of RAMP: the running maximum, and the peak once the current has fallen peak_drop below it (R53, R54). -/
def Episode.stepRamp (e : Episode) (m : MotionGroup) (x : Half) (current : Int) : EpisodeStep :=
  let top := newMax e.runningMax x current
  if current ≤ top.current - m.peakDrop then
    .stays { e with runningMax := some top, peak := some top, runningMin := some ⟨x, current⟩, phase := .dip }
  else .stays { e with runningMax := some top }

/-- The check of a confirmed valley against the motion group: the first condition that holds names the outcome
(R56). -/
def motionFault (m : MotionGroup) (reaction travel : Nat) : Option EpisodeOutcome :=
  if reaction < m.reactionMin then some .earlyMotion
  else if travel < m.travelMin then some .travelShort
  else if m.travelMax < travel then some .travelLong
  else none

/-- The reaction of an episode, once its valley is confirmed (R43, R56). -/
def Episode.reaction? (e : Episode) : Option Nat := e.valley.map fun v => periods e.cmdIndex v.index

/-- The travel of an episode, once its valley is confirmed (R43, R56). -/
def Episode.travel? (e : Episode) : Option Nat :=
  match e.peak, e.valley with
  | some p, some v => some (periods p.index v.index)
  | _, _ => none

/-- The step of DIP: the running minimum, and the valley once the current has risen valley_rise above it (R55, R56).
-/
def Episode.stepDip (e : Episode) (m : MotionGroup) (x : Half) (current : Int) : EpisodeStep :=
  let bottom := newMin e.runningMin x current
  let e := { e with runningMin := some bottom }
  if bottom.current + m.valleyRise ≤ current then
    let e := { e with valley := some bottom }
    match motionFault m (e.reaction?.getD 0) (e.travel?.getD 0) with
    | some outcome => .closes e outcome none
    | none => .stays { e with phase := .climb }
  else .stays e

/-- MEASURE begins with its sums at 0; without the measure group the episode closes PASS instead (R57, R58). -/
def Episode.enterMeasure (e : Episode) (p : Profile) : EpisodeStep :=
  if p.measure.isSome then .stays { e with phase := .measure, sumCurrent := 0, sumVoltage := 0, measureCount := 0 }
  else .closes e .pass none

/-- The step of CLIMB: complete once the hit is recorded (R57). -/
def Episode.stepClimb (e : Episode) (p : Profile) : EpisodeStep :=
  if e.hit.isNone then .stays e
  else if 0 < p.settle then .stays { e with phase := .settle, settleCount := 0 }
  else e.enterMeasure p

/-- The step of SETTLE: one more present entry, complete at settle (R58). -/
def Episode.stepSettle (e : Episode) (p : Profile) : EpisodeStep :=
  let e := { e with settleCount := e.settleCount + 1 }
  if p.settle ≤ e.settleCount then e.enterMeasure p else .stays e

/-- The resistance in mΩ, rounded down; none when the current sum is 0 or negative (R73). -/
def resistance? (sumCurrent : Int) (sumVoltage : Nat) : Option Nat :=
  if sumCurrent ≤ 0 then none else some (1000 * sumVoltage / sumCurrent.toNat)

/-- The outcome that the resistance names (R73, R74). -/
def judgeResistance (g : MeasureGroup) : Option Nat → EpisodeOutcome
  | none => .resHigh
  | some r => if r < g.rMin then .resLow else if g.rMax < r then .resHigh else .pass

/-- The step of MEASURE: the sums, and the resistance check when the window is complete (R59, R60). -/
def Episode.stepMeasure (e : Episode) (g : MeasureGroup) (entry : SampleEntry) : EpisodeStep :=
  let e :=
    { e with
      sumCurrent := e.sumCurrent + entry.current
      sumVoltage := e.sumVoltage + entry.voltage
      measureCount := e.measureCount + 1 }
  if g.window ≤ e.measureCount then
    let r := resistance? e.sumCurrent e.sumVoltage
    .closes e (judgeResistance g r) r
  else .stays e

/-- Step 4 behind the levels: the step of the current phase (R52). A phase whose group the profile lacks does not
arise (R43) and waits (log entry 12). -/
def Episode.stepPhase (e : Episode) (p : Profile) (x : Half) (entry : SampleEntry) : EpisodeStep :=
  match e.phase with
  | .ramp =>
    match p.motion with
    | some m => e.stepRamp m x entry.current
    | none => .stays e
  | .dip =>
    match p.motion with
    | some m => e.stepDip m x entry.current
    | none => .stays e
  | .climb => e.stepClimb p
  | .settle => e.stepSettle p
  | .measure =>
    match p.measure with
    | some g => e.stepMeasure g entry
    | none => .stays e

/-- The reaction deadline applies: the phase is RAMP or DIP and elapsed is above reaction_max (R61). -/
def Episode.lateMotion (e : Episode) (p : Profile) : Bool :=
  match e.phase, p.motion with
  | .ramp, some m => decide (m.reactionMax < e.elapsed)
  | .dip, some m => decide (m.reactionMax < e.elapsed)
  | _, _ => false

/-- Step 5: at most one deadline, in the order of R61. -/
def Episode.deadline (e : Episode) (p : Profile) : Option EpisodeOutcome :=
  if p.openDeadline ≤ e.elapsed ∧ e.openSeen = false then some .openLoad
  else if p.hitDeadline ≤ e.elapsed ∧ e.hit = none then some .hitMissed
  else if e.lateMotion p = true then some .noMotion
  else none

/-- Step 5 on an episode that steps 1 to 4 left open (R61). -/
def Episode.checkDeadline (e : Episode) (p : Profile) : EpisodeStep :=
  match e.deadline p with
  | some outcome => .closes e outcome none
  | none => .stays e

/-- The entry reaches the overcurrent level (R49, R86). -/
def SampleEntry.trips (entry : SampleEntry) (p : Profile) : Bool := decide ((p.ocLevel : Int) ≤ entry.current)

/-- The five steps of R46 on an accepted frame with index `x` and the channel's entry, if it carries one. -/
def Episode.handle (e : Episode) (p : Profile) (x : Half) (entry : Option SampleEntry) : EpisodeStep :=
  let e := e.count x entry.isSome
  match entry with
  | some entry =>
    if entry.trips p then .trips e
    else if p.gapLimit < e.gap then .closes e .voidGap none
    else
      match (e.trackLevels p x entry.current).stepPhase p x entry with
      | .stays e => e.checkDeadline p
      | step => step
  | none => if p.gapLimit < e.gap then .closes e .voidGap none else e.checkDeadline p

end Sys2Proof.Machine
end

