-- ==== Sys2Proof/Machine/Tracker.lean ====
section
/-! DEFINITION. The channel tracker: closing (R67 to R71), trips (R72, R88), voids (R79), accepted frames (R45), and
the effects of judged and injected entries on a channel (R17, R29, R30, R94). -/

namespace Sys2Proof.Machine

/-- The snapshot and the episode of a channel that has an open episode; an episode stands only beside a snapshot
(R40; log entry 12). -/
def Channel.tracking (c : Channel) : Option (Snapshot × Episode) :=
  match c.snapshot, c.episode with
  | some sn, some e => some (sn, e)
  | _, _ => none

/-- The class counter and the fail count of a closure: steps 1 and 2 of R67 (R68, R69). -/
def Channel.account (c : Channel) : OutcomeClass → Channel
  | .pass => { c with passed := c.passed + 1, failCount := 0 }
  | .fail => { c with failed := c.failed + 1, failCount := min 15 (c.failCount + 1) }
  | .neutral => { c with neutral := c.neutral + 1 }

/-- The lock condition on a channel whose fail count has been raised (R70). -/
def Channel.locks (c : Channel) (sn : Snapshot) : Bool :=
  sn.profile.lockAfter != 0 && decide (sn.profile.lockAfter ≤ c.failCount) && c.disposition != .locked

/-- The lock decision for a fail closure or a trip outside an episode, with the LOCKED record it causes (R70, R71). -/
def Channel.decideLock (c : Channel) (ch : ChannelId) (sn : Snapshot) : Channel × List Record :=
  if c.locks sn then
    ({ c with disposition := .locked, pendingInjection := c.pendingInjection || c.energized },
      [.locked ch c.failCount sn.index sn.generation])
  else (c, [])

/-- The VERDICT of a closure, on a channel whose fail count has been adjusted (R62, R75, R76). -/
def verdictOf (c : Channel) (ch : ChannelId) (sn : Snapshot) (e : Episode) (outcome : EpisodeOutcome)
    (resistance : Option Nat) : Verdict where
  channel := ch
  outcome := outcome
  profileIndex := sn.index
  generation := sn.generation
  cmdIndex := e.cmdIndex
  elapsed := e.elapsed
  gap := e.gap
  failCount := c.failCount
  peak := e.peak
  valley :=
    match e.valley, e.reaction?, e.travel? with
    | some mark, some reaction, some travel => some { mark, reaction, travel }
    | _, _, _ => none
  hit := e.hit
  resistance := resistance

/-- The closing steps of R67: the channel without its episode, and the records in their order. -/
def Channel.close (c : Channel) (ch : ChannelId) (sn : Snapshot) (e : Episode) (outcome : EpisodeOutcome)
    (resistance : Option Nat) : Channel × List Record :=
  let counted := c.account outcome.outcomeClass
  let verdict := Record.verdict (verdictOf counted ch sn e outcome resistance)
  let decided := if outcome.outcomeClass = .fail then counted.decideLock ch sn else (counted, [])
  ({ decided.1 with episode := none }, verdict :: decided.2)

/-- The closure of an open episode from outside; nothing without one (R77 to R79). -/
def Channel.closeOutside (c : Channel) (ch : ChannelId) (outcome : EpisodeOutcome) : Channel × List Record :=
  match c.tracking with
  | some (sn, e) => c.close ch sn e outcome none
  | none => (c, [])

/-- A trip's disposition and injection: steps 1 and 2 of R88. -/
def Channel.trip (c : Channel) : Channel := { c with disposition := .tripped, pendingInjection := true }

/-- The accounting of a trip outside an episode (R72, R89). -/
def Channel.accountTrip (c : Channel) (ch : ChannelId) (sn : Snapshot) (x : Half) (current : Int) :
    Channel × List Record :=
  let counted := { c with trips := c.trips + 1, failCount := min 15 (c.failCount + 1) }
  let record := Record.trip
    { channel := ch, sampleIndex := x, current, profileIndex := sn.index, generation := sn.generation
      failCount := counted.failCount }
  let decided := counted.decideLock ch sn
  (decided.1, record :: decided.2)

/-- The overcurrent check on a channel without an open episode (R86, R87, R88). -/
def Channel.checkOvercurrent (c : Channel) (ch : ChannelId) (x : Half) (entry : Option SampleEntry) :
    Channel × List Record :=
  match entry, c.snapshot with
  | some entry, some sn =>
    if c.energized && c.disposition == .open_ && entry.trips sn.profile then
      c.trip.accountTrip ch sn x entry.current
    else (c, [])
  | _, _ => (c, [])

/-- An accepted frame on one channel (R45, R46, R88). -/
def Channel.handleFrame (c : Channel) (ch : ChannelId) (x : Half) (entry : Option SampleEntry) :
    Channel × List Record :=
  match c.tracking with
  | some (sn, e) =>
    match e.handle sn.profile x entry with
    | .stays e => ({ c with episode := some e }, [])
    | .closes e outcome resistance => c.close ch sn e outcome resistance
    | .trips e => c.trip.close ch sn e .overcurrent none
  | none => c.checkOvercurrent ch x entry

/-- Puts a channel's new context back and hands its records (R45, R71). -/
def State.putChannel (s : State) (ch : ChannelId) (r : Channel × List Record) : State :=
  (s.setChannel ch r.1).hand r.2

/-- A void: every open episode closes with the outcome, in ascending channel order (R79). -/
def State.voidEpisodes (s : State) (outcome : EpisodeOutcome) : State :=
  allChannels.foldl (fun s ch => s.putChannel ch ((s.channel ch).closeOutside ch outcome)) s

/-- The channel tracker's handling of an accepted frame, channels in ascending order (R45). -/
def State.trackFrame (s : State) (m : Sample) : State :=
  allChannels.foldl (fun s ch => s.putChannel ch ((s.channel ch).handleFrame ch m.index (m.entry? ch))) s

/-- The snapshot an admitted ENERGIZE takes: the record of the slot that the channel's ACTIVE map entry names (R17).
An ACTIVE map entry never names an EMPTY slot (R14); such an entry would count as NONE (log entry 12). -/
def State.snapshotFor (s : State) (ch : ChannelId) : Option Snapshot :=
  match s.active.map[ch.val] with
  | some slot => s.active.slots[slot.val].map fun profile => { profile, index := slot, generation := s.generation }
  | none => none

/-- The index at which an episode may open: the reference, while the driver is ACTIVE and the supply OK (R41). -/
def Observer.openingIndex (o : Observer) : Option Half :=
  if o.activity = .active ∧ o.supply = .ok then o.reference else none

/-- An admitted ENERGIZE on a channel whose earlier episode has been closed: energized, the snapshot taken or dropped,
and an episode opened where R41 allows (R17, R29, R43, R44). -/
def Channel.energize (c : Channel) (snapshot : Option Snapshot) (opening : Option Half) : Channel :=
  match snapshot, opening with
  | some sn, some reference =>
    { c with
      energized := true
      snapshot := some sn
      episode := some (Episode.start sn.profile reference)
      opened := c.opened + 1 }
  | snapshot, _ => { c with energized := true, snapshot, episode := none }

/-- An admitted ENERGIZE entry at its channel (R29). -/
def State.admitEnergize (s : State) (ch : ChannelId) : State :=
  let closed := s.putChannel ch ((s.channel ch).closeOutside ch .superseded)
  closed.setChannel ch ((closed.channel ch).energize (closed.snapshotFor ch) closed.observer.openingIndex)

/-- A RELEASE that departs for a channel clears its flags and drops its snapshot (R18, R23, R24). -/
def Channel.released (c : Channel) : Channel :=
  { c with energized := false, pendingInjection := false, snapshot := none }

/-- A rewritten ENERGIZE entry: a RELEASE departure that keeps the disposition, a BLOCKED record, and the counter
(R29). -/
def State.rewriteEnergize (s : State) (ch : ChannelId) : State :=
  let released := (s.setChannel ch (s.channel ch).released).hand [.blocked ch 1]
  { released with
    monitor := { released.monitor with blockedEntry := released.monitor.blockedEntry + 1 } }

/-- A controller RELEASE returns a TRIPPED channel to OPEN (R30). -/
def Channel.releasedByController (c : Channel) : Channel :=
  { c.released with
    episode := none
    disposition := if c.disposition = .tripped then .open_ else c.disposition }

/-- A controller RELEASE entry at its channel, in the order of R30. -/
def State.applyRelease (s : State) (ch : ChannelId) : State :=
  let closed := s.putChannel ch ((s.channel ch).closeOutside ch .releasedEarly)
  closed.setChannel ch (closed.channel ch).releasedByController

/-- An injected RELEASE at its channel; the disposition is kept (R94). -/
def State.applyInjection (s : State) (ch : ChannelId) : State := s.setChannel ch (s.channel ch).released

/-- Warm restart at a channel: the episode is discarded and the five counters are 0 (R80). -/
def Channel.restart (c : Channel) : Channel :=
  { c with episode := none, opened := 0, passed := 0, failed := 0, neutral := 0, trips := 0 }

/-- Warm restart at every channel (R160 step 2). -/
def State.restartChannels (s : State) : State :=
  allChannels.foldl (fun s ch => s.setChannel ch (s.channel ch).restart) s

end Sys2Proof.Machine
end

