-- ==== Sys2Proof/Machine/Arbiter.lean ====
section
/-! DEFINITION. The two egress arbiters, what they select and when, and the departures, which are the selections: the
command judge (R25 to R32), the injection unit (R93, R94), and the C-port's three sources (R170, R171). -/

namespace Sys2Proof.Machine

/-! The selections. -/

/-- What the D-port arbiter selects of the sources that wait: an injection before the DFQ head (R168). -/
def State.dSelect (s : State) : Option DSource :=
  if s.injectionOffered then some .injection else if s.dfq.isEmpty then none else some .queueHead

/-- The source waits at the D-port arbiter (R92, R168). -/
def State.dWaits (s : State) : DSource → Bool
  | .injection => s.injectionOffered
  | .queueHead => !s.dfq.isEmpty

/-- The selection that stands at the D-port: none unless the port is UP and its transmitter free; a source already
selected, as long as it waits; otherwise what the arbiter selects now (R96, R163, R168). -/
def State.dStanding (s : State) : Option DSource :=
  if s.dPort.ready then (s.dSelected.filter s.dWaits).or s.dSelect else none

/-- What the C-port arbiter selects of the sources that wait: a response first; a report and the UFQ head take turns
by the marker (R170). -/
def State.cSelect (s : State) : Option CSource :=
  if s.responses.isEmpty then
    match s.report.offer.isSome, s.ufq.isEmpty with
    | true, true => some .report
    | true, false => if s.marker = .forward then some .report else some .forward
    | false, false => some .forward
    | false, true => none
  else some .response

/-- The source waits at the C-port arbiter (R123, R145, R170). -/
def State.cWaits (s : State) : CSource → Bool
  | .response => !s.responses.isEmpty
  | .report => s.report.offer.isSome
  | .forward => !s.ufq.isEmpty

/-- The selection that stands at the C-port, as at the D-port (R163, R170). -/
def State.cStanding (s : State) : Option CSource :=
  if s.cPort.ready then (s.cSelected.filter s.cWaits).or s.cSelect else none

/-! The D-port. -/

/-- The command judge reads a frame of kind COMMAND whose destination is the driver_address in force (R25). -/
def State.judges (s : State) (f : Frame) : Bool :=
  f.kind == Frame.commandKind && f.destination == s.active.policy.driverAddress

/-- The channels with a pending injection, in ascending order (R93). -/
def State.pendingChannels (s : State) : List ChannelId := allChannels.filter fun ch => (s.channel ch).pendingInjection

/-- The injected frame, built from the state at its departure (R93). -/
def State.injectedFrame (s : State) : Frame :=
  Frame.build Frame.commandKind s.active.policy.driverAddress s.ownAddress s.injectionCounter
    (commandPayload (s.pendingChannels.map fun ch => { channel := ch, action := releaseAction, argument := 0 }))

/-- An injected departure: the frame enters transmission, the counters rise, every included channel is released (R91,
R93, R94). -/
def State.departInjection (s : State) : State :=
  let released := s.pendingChannels.foldl State.applyInjection s
  State.sendD
    { released with
      injectionCounter := s.injectionCounter + 1
      monitor := { released.monitor with injectedFrame := released.monitor.injectedFrame + 1 } }
    s.injectedFrame

/-- One entry of a well-formed judged frame at its channel, and the entry as it departs (R28 to R31). -/
def State.judgeEntry (s : State) (e : CommandEntry) : State × CommandEntry :=
  if e.action = energizeAction then
    if (s.channel e.channel).disposition = .open_ then (s.admitEnergize e.channel, e)
    else (s.rewriteEnergize e.channel, { e with action := releaseAction, argument := 0 })
  else if e.action = releaseAction then (s.applyRelease e.channel, e)
  else (s, e)

/-- The entries of a judged frame, one after another (R28). -/
def State.judgeEntries (s : State) : List CommandEntry → State × List CommandEntry
  | [] => (s, [])
  | e :: rest =>
    let first := s.judgeEntry e
    let others := first.1.judgeEntries rest
    (others.1, first.2 :: others.2)

/-- The frame as it departs: as received, or with its rewritten entries and a check sequence computed anew (R32). -/
def judgedFrame (f : Frame) (entries departing : List CommandEntry) : Frame :=
  if departing = entries then f else Frame.withCrc { f with payload := commandPayload departing }

/-- A malformed judged frame is dropped: a MALFORMED record and the counter (R27). -/
def State.dropMalformed (s : State) : State :=
  let handed := s.hand [.malformed 1]
  { handed with monitor := { handed.monitor with malformedCommand := handed.monitor.malformedCommand + 1 } }

/-- A well-formed judged frame departs (R28, R32). -/
def State.departJudged (s : State) (f : Frame) (entries : List CommandEntry) : State :=
  let judged := s.judgeEntries entries
  judged.1.sendD (judgedFrame f entries judged.2)

/-- The departures of one event at the D-port, over the frames that wait in the DFQ: the head where it has been
selected, otherwise what the arbiter selects, an injection first. A malformed judged head is dropped, and the arbiter
selects again within the same event (R168, R169). -/
def State.departD (s : State) (head : Bool) : List Frame → State
  | [] =>
    let s := { s with dfq := [] }
    if s.injectionOffered then s.departInjection else s
  | f :: rest =>
    if !head && s.injectionOffered then State.departInjection { s with dfq := f :: rest }
    else if s.judges f then
      match readCommand f.payload with
      | some entries => State.departJudged { s with dfq := rest } f entries
      | none => (State.dropMalformed s).departD false rest
    else State.sendD { s with dfq := rest } f

/-! The C-port. -/

/-- The response queue head departs as it was built (R145, R171). -/
def State.departResponse (s : State) : State :=
  match s.responses with
  | f :: rest => State.sendC { s with responses := rest } f
  | [] => s

/-- The offered record departs in a REPORT frame; the marker becomes REPORT (R124, R170). -/
def State.departReport (s : State) : State :=
  match s.report.offer with
  | some (number, r) =>
    State.sendC
      { s with
        report := s.report.depart s.active.policy.retransmitMs
        marker := .report
        monitor := { s.monitor with reportFrame := s.monitor.reportFrame + 1 } }
      (reportFrame s.ownAddress s.active.policy.sinkAddress (number.getD s.report.nextSequence) r)
  | none => s

/-- The UFQ head departs byte for byte as received; the marker becomes FORWARD (R170, R171). -/
def State.departForward (s : State) : State :=
  match s.ufq with
  | f :: rest => State.sendC { s with ufq := rest, marker := .forward } f
  | [] => s

/-! The selection is the departure. -/

/-- The departure of the source that the D-port arbiter has selected (R168, R169). -/
def State.leaveD (s : State) : State :=
  match s.dStanding with
  | some .injection => s.departInjection
  | some .queueHead => s.departD true s.dfq
  | none => s

/-- The departure of the source that the C-port arbiter has selected (R170, R171). -/
def State.leaveC (s : State) : State :=
  match s.cStanding with
  | some .response => s.departResponse
  | some .report => s.departReport
  | some .forward => s.departForward
  | none => s

/-- The rows of the table that are departures. -/
def departureRows : List Instr :=
  [.judgedDeparture, .dPortDeparture, .injectedDeparture, .responseDeparture, .reportDeparture, .ufqDeparture]

/-- The row of the departure that the D-port arbiter has selected (R169). -/
def State.dRow (s : State) : Option Instr :=
  match s.dStanding, s.dfq with
  | some .injection, _ => some .injectedDeparture
  | some .queueHead, f :: _ => some (if s.judges f then .judgedDeparture else .dPortDeparture)
  | _, _ => none

/-- The row of the departure that the C-port arbiter has selected (R171). -/
def State.cRow (s : State) : Option Instr :=
  match s.cStanding with
  | some .response => some .responseDeparture
  | some .report => some .reportDeparture
  | some .forward => some .ufqDeparture
  | none => none

/-- The request to the L16 that a command holds, as its row or as the bytes of its frame (R139, R165). -/
def State.requestIn (s : State) : Instr → Option Request
  | .cPortReceipt bytes =>
    match checkFrame bytes with
    | .valid f =>
      if f.destination = s.ownAddress ∧ f.kind = Frame.requestKind then decodeRequest f.payload else none
    | _ => none
  | i => i.request?.map fun held => held.2.2

/-- The requests that can meet an injection before its departure (R37, R82, R97, R161). -/
def meetsInjection : Request → Bool
  | .unlockChannel _ => true
  | .readChannel _ => true
  | .commit => true
  | .warmRestart => true
  | _ => false

/-- The request that can meet a judged departure before it, the injection then pending (R37). -/
def meetsJudged : Request → Bool
  | .unlockChannel _ => true
  | _ => false

/-- The claims that can meet the departure of a row at the D-port and be taken before it, an injection then pending: a
driver's frame (R33, R34, R42, R63, R97), the requests that meet it, and, before an injection, the silence (R97). -/
def State.meets (s : State) (row i : Instr) : Bool :=
  match row, i with
  | .judgedDeparture, .dPortReceipt _ => true
  | .judgedDeparture, i => (s.requestIn i).any meetsJudged
  | .injectedDeparture, .dPortReceipt _ => true
  | .injectedDeparture, .silenceExpiry => true
  | .injectedDeparture, i => (s.requestIn i).any meetsInjection
  | _, _ => false

/-- The row waits in the queue of commands behind nothing but departures and commands that meet it. -/
def State.rowWaits (s : State) (row : Instr) (meets : Instr → Bool) : Bool :=
  (s.pending.takeWhile fun i => departureRows.contains i || meets i).contains row

/-- The selected departure at the D-port is left to its own row, which the sender has placed next, behind no more than
what meets it (R33, R34, R37, R82, R96, R97; log entry 3). -/
def State.dHeld (s : State) : Bool :=
  match s.dRow with
  | some row => s.rowWaits row (s.meets row)
  | none => false

/-- The selected departure at the C-port is left to its own row, which the sender has placed next (log entry 3). -/
def State.cHeld (s : State) : Bool :=
  match s.cRow with
  | some row => s.rowWaits row fun _ => false
  | none => false

/-- The selected departure at the D-port, unless it is left to its row. -/
def State.concludeD (s : State) : State := if s.dHeld then s else s.leaveD

/-- The selected departure at the C-port, unless it is left to its row. -/
def State.concludeC (s : State) : State := if s.cHeld then s else s.leaveC

/-- Both ports have a departure that is not left to its row. -/
def State.bothLeave (s : State) : Bool :=
  s.dStanding.isSome && !s.dHeld && s.cStanding.isSome && !s.cHeld

/-- The selections as the state holds them. -/
def State.select (s : State) : State := { s with dSelected := s.dStanding, cSelected := s.cStanding }

/-- The arbiters at the end of an event that can have brought their conditions about: each selects where its port is UP,
its transmitter free and a source waits, and the selection is the departure (R168 to R172, R176). Departures on both
ports are taken in a free order (log entry 7); a judged one can hand a record that the C-port arbiter then selects. A
departure that is left to its row stays selected. -/
def State.arbitrate (s : State) : State :=
  State.select
    (if s.bothLeave then
      let s' := { s with freeCount := s.freeCount + 1 }
      if Config.freeOrder s.freeCount % 2 = 0 then s'.concludeD.concludeC else s'.concludeC.concludeD
    else s.concludeD.concludeC)

end Sys2Proof.Machine
end

