-- ==== Sys2Proof/Machine/Departures.lean ====
section
/-! DEFINITION. The meanings of the six departures: the departure of the source that its arbiter has selected and that
has been left to its row (log entry 3). In any other state the departure has been taken with its selection, and the
command has no effect (log entry 4). -/

namespace Sys2Proof.Machine

/-- JUDGED_DEPARTURE (R25, R27, R28, R169): the DFQ head has been selected and is a COMMAND frame to the driver. -/
def execJudgedDeparture (s : State) : Host.Outcome State Fault Refusal :=
  .next
    (match s.dStanding, s.dfq with
    | some .queueHead, f :: rest => if s.judges f then (s.departD true (f :: rest)).arbitrate else s
    | _, _ => s)

/-- D_PORT_DEPARTURE (R169): the DFQ head has been selected, is not judged, and departs byte for byte as received. -/
def execDPortDeparture (s : State) : Host.Outcome State Fault Refusal :=
  .next
    (match s.dStanding, s.dfq with
    | some .queueHead, f :: rest => if s.judges f then s else (State.sendD { s with dfq := rest } f).arbitrate
    | _, _ => s)

/-- INJECTED_DEPARTURE (R93, R94, R168). -/
def execInjectedDeparture (s : State) : Host.Outcome State Fault Refusal :=
  .next (if s.dStanding = some .injection then s.departInjection.arbitrate else s)

/-- RESPONSE_DEPARTURE (R145, R170, R171). -/
def execResponseDeparture (s : State) : Host.Outcome State Fault Refusal :=
  .next (if s.cStanding = some .response then s.departResponse.arbitrate else s)

/-- REPORT_DEPARTURE (R124, R170). -/
def execReportDeparture (s : State) : Host.Outcome State Fault Refusal :=
  .next (if s.cStanding = some .report then s.departReport.arbitrate else s)

/-- UFQ_DEPARTURE (R170, R171). -/
def execUfqDeparture (s : State) : Host.Outcome State Fault Refusal :=
  .next (if s.cStanding = some .forward then s.departForward.arbitrate else s)

end Sys2Proof.Machine
end

