-- ==== Sys2Proof/Machine/Observer.lean ====
section
/-! DEFINITION. The sample observer: the sign of life (R101), silence (R103, R112), classification (R106, R107) and
the supply evaluation (R109, R110). -/

namespace Sys2Proof.Machine

/-- A CRC-valid frame on the D-port: the silence timer starts, and a SILENT driver becomes ACTIVE with DRIVER_BACK
(R101 steps 1 and 2). -/
def State.signOfLife (s : State) : State :=
  let records := if s.observer.activity = .silent then [Record.driverBack] else []
  let s :=
    { s with
      observer := { s.observer with activity := .active, silenceTimer := some s.active.policy.silenceMs } }
  s.hand records

/-- The driver falls silent: R103, at the expiry and at a D-port link loss while ACTIVE (R112). -/
def State.fallSilent (s : State) : State :=
  let s := { s with observer := { s.observer with activity := .silent, silenceTimer := none } }
  let s := s.voidEpisodes .voidSilent
  let s := { s with observer := { s.observer with reference := none } }
  s.hand [.driverSilent]

/-- The supply evaluation of an accepted frame (R109, R110). -/
def State.evaluateSupply (s : State) (supply : Nat) : State :=
  let low := s.active.policy.supplyLow
  match s.observer.supply with
  | .ok =>
    if low ≠ 0 ∧ supply < low then
      let s := { s with observer := { s.observer with supply := .low } }
      (s.voidEpisodes .voidSupply).hand [.supplyLow supply]
    else s
  | .low =>
    if low = 0 ∨ s.active.policy.supplyOk ≤ supply then
      let s := { s with observer := { s.observer with supply := .ok } }
      s.hand [.supplyOk supply]
    else s

/-- The four cases of R106. -/
inductive IndexClass where
  | absent
  | advance
  | duplicate
  | resync
  deriving DecidableEq, Repr

/-- The class of an index against the reference (R106). -/
def classify (reference : Option Half) (x : Half) : IndexClass :=
  match reference with
  | none => .absent
  | some r => if periods r x = 0 then .duplicate else if periods r x < 32768 then .advance else .resync

/-- The void and the counter of a resync (R107). -/
def State.resync (s : State) : State :=
  let s := s.voidEpisodes .voidGap
  { s with monitor := { s.monitor with resync := s.monitor.resync + 1 } }

/-- Steps 2 to 4 of R108: the reference, the supply, the channels. -/
def State.acceptSample (s : State) (m : Sample) : State :=
  let s := { s with observer := { s.observer with reference := some m.index } }
  (s.evaluateSupply m.supply).trackFrame m

/-- A well-formed SAMPLE frame (R106, R107, R108). -/
def State.observeSample (s : State) (m : Sample) : State :=
  match classify s.observer.reference m.index with
  | .duplicate => { s with monitor := { s.monitor with duplicateSample := s.monitor.duplicateSample + 1 } }
  | .resync => s.resync.acceptSample m
  | .absent => s.acceptSample m
  | .advance => s.acceptSample m

/-- A SAMPLE payload: observed, or counted as malformed (R105). -/
def State.observe (s : State) (payload : List Byte) : State :=
  match readSample payload with
  | some m => s.observeSample m
  | none => { s with monitor := { s.monitor with malformedSample := s.monitor.malformedSample + 1 } }

end Sys2Proof.Machine
end

