-- ==== Sys2Proof/Machine/Expiry.lean ====
section
/-! DEFINITION. The meanings of the three expiries. A timer expires where its ticks have passed and nothing has
started or stopped it since (R102, R126, R148; log entry 6): no tick is left on it. On a timer that is stopped or has
ticks left the command has no effect (log entry 4). -/

namespace Sys2Proof.Machine

/-- The silence timer's ticks have passed (R102). -/
def State.silenceDue (s : State) : Bool := s.observer.silenceTimer == some 0

/-- SILENCE_EXPIRY (R103). -/
def execSilenceExpiry (s : State) : Host.Outcome State Fault Refusal :=
  .next (if s.silenceDue then s.fallSilent.arbitrate else s)

/-- The retransmit timer's ticks have passed (R126). -/
def State.retransmitDue (s : State) : Bool := s.report.retransmitTimer == some 0

/-- The expiry of the retransmit timer, with the retransmit_ms in force (R126, R127, R128). -/
def State.expireRetransmit (s : State) : State :=
  { s with report := s.report.expire s.active.policy.retransmitMs }

/-- RETRANSMIT_EXPIRY (R127, R128). -/
def execRetransmitExpiry (s : State) : Host.Outcome State Fault Refusal :=
  .next (if s.retransmitDue then s.expireRetransmit.arbitrate else s)

/-- The lease's ticks have passed (R148). -/
def State.leaseDue (s : State) : Bool :=
  match s.session with
  | some session => session.lease == 0
  | none => false

/-- The expiry of the lease: the session ends and SESSION_LAPSED names its holder (R149). -/
def State.expireLease (s : State) : State :=
  match s.session with
  | some session => State.hand { s with session := none } [.sessionLapsed session.holder]
  | none => s

/-- LEASE_EXPIRY (R149). -/
def execLeaseExpiry (s : State) : Host.Outcome State Fault Refusal :=
  .next (if s.leaseDue then s.expireLease.arbitrate else s)

end Sys2Proof.Machine
end

