-- ==== Sys2Proof/Machine/Link.lean ====
section
/-! DEFINITION. The meanings of COLD_RESET, the link losses, LINK_RETURN and TRANSMISSION_COMPLETE. -/

namespace Sys2Proof.Machine

/-- The own address that the straps give: 70H plus the number ADDR2..ADDR0 (R178). -/
def strapAddress (straps : BitVec 3) : Byte := 0x70#8 + straps.zeroExtend 8

/-- Cold reset, from its assertion to its release (R178; log entry 2): every block at its cold-reset values, the own
address sampled from the straps. The waiting commands and the model's own count are not the part's and stay. -/
def State.coldReset (s : State) (straps : BitVec 3) : State :=
  { State.reset with ownAddress := strapAddress straps, freeCount := s.freeCount, pending := s.pending }

/-- COLD_RESET (R178). -/
def execColdReset (straps : BitVec 3) (s : State) : Host.Outcome State Fault Refusal := .next (s.coldReset straps)

/-- Link loss on the D-port: the four steps of R174. -/
def State.loseD (s : State) : State :=
  let s := { s with dPort := s.dPort.lose s.dfq.length, dfq := [] }
  if s.observer.activity = .active then s.fallSilent else s

/-- LINK_LOSS_D (R174): the change from UP to DOWN; on a DOWN port there is none (log entry 4). -/
def execLinkLossD (s : State) : Host.Outcome State Fault Refusal :=
  .next (if s.dPort.up then s.loseD.arbitrate else s)

/-- Link loss on the C-port: the four steps of R175. -/
def State.loseC (s : State) : State :=
  { s with
    cPort := s.cPort.lose s.ufq.length
    ufq := []
    responses := []
    monitor :=
      { s.monitor with
        responseDiscarded := s.monitor.responseDiscarded + BitVec.ofNat 32 s.responses.length } }

/-- LINK_LOSS_C (R175): the change from UP to DOWN; on a DOWN port there is none (log entry 4). -/
def execLinkLossC (s : State) : Host.Outcome State Fault Refusal :=
  .next (if s.cPort.up then s.loseC.arbitrate else s)

/-- LINK_RETURN (R176): the port becomes UP, and its arbiter selects at once if its transmitter is free and
a source waits. -/
def execLinkReturn (port : PortName) (s : State) : Host.Outcome State Fault Refusal :=
  .next
    (match port with
    | .cPort => State.arbitrate { s with cPort := { s.cPort with up := true } }
    | .dPort => State.arbitrate { s with dPort := { s.dPort with up := true } })

/-- TRANSMISSION_COMPLETE (R172): the transmitter is free, the transmitted counter rises, and the arbiter selects
again if a source waits; without a transmission nothing completes (log entry 4). -/
def execTransmissionComplete (port : PortName) (s : State) : Host.Outcome State Fault Refusal :=
  .next
    (match port with
    | .cPort => if s.cPort.sending.isSome then State.arbitrate { s with cPort := s.cPort.complete } else s
    | .dPort => if s.dPort.sending.isSome then State.arbitrate { s with dPort := s.dPort.complete } else s)

end Sys2Proof.Machine
end

