-- ==== Sys2Proof/Machine/Store.lean ====
section
/-! DEFINITION. The table store: the checks of written records (R5, R7, R9), the consistency check (R13) and the
generation (R13). -/

namespace Sys2Proof

/-- The first failing check of a list names its field code (R5, R9). -/
def firstFailure (checks : List (Byte × Bool)) : Option Byte := (checks.find? fun c => !c.2).map Prod.fst

/-- A number lies in a closed range. -/
def inRange (low n high : Nat) : Bool := decide (low ≤ n) && decide (n ≤ high)

/-- The core checks in the order of R5 (field codes 01H to 08H). -/
def Profile.coreChecks (p : Profile) : List (Byte × Bool) :=
  [(0x01#8, inRange 1 p.openLevel 32767),
    (0x02#8, inRange 1 p.openDeadline 255),
    (0x03#8, inRange (p.openLevel + 1) p.hitLevel 32767),
    (0x04#8, inRange p.openDeadline p.hitDeadline 1023),
    (0x05#8, inRange (p.hitLevel + 1) p.ocLevel 32767),
    (0x06#8, inRange 0 p.settle 255),
    (0x07#8, inRange 0 p.gapLimit 15),
    (0x08#8, inRange 0 p.lockAfter 15)]

/-- The motion checks in the order of R5 (field codes 09H to 0EH). -/
def MotionGroup.checks (m : MotionGroup) : List (Byte × Bool) :=
  [(0x09#8, inRange 1 m.peakDrop 4095),
    (0x0A#8, inRange 1 m.valleyRise 4095),
    (0x0B#8, inRange 0 m.reactionMin 1022),
    (0x0C#8, inRange (m.reactionMin + 1) m.reactionMax 1023),
    (0x0D#8, inRange 0 m.travelMin 1022),
    (0x0E#8, inRange (m.travelMin + 1) m.travelMax 1023)]

/-- The measure checks in the order of R5 (field codes 0FH to 11H). -/
def MeasureGroup.checks (m : MeasureGroup) : List (Byte × Bool) :=
  [(0x0F#8, inRange 1 m.window 64),
    (0x10#8, inRange 1 m.rMin 4000000),
    (0x11#8, inRange (m.rMin + 1) m.rMax 4000000)]

/-- All the checks of a record, the groups that are present only (R5). -/
def Profile.checks (p : Profile) : List (Byte × Bool) :=
  p.coreChecks ++ (p.motion.map MotionGroup.checks).getD [] ++ (p.measure.map MeasureGroup.checks).getD []

/-- The field code of the first field of a record that fails (R5). -/
def Profile.badField (p : Profile) : Option Byte := firstFailure p.checks

/-- The checks of a policy record, in the order of R8 and R9 (field codes 30H to 35H). -/
def Policy.checks (p : Policy) (own : Byte) : List (Byte × Bool) :=
  [(0x30#8, p.driverAddress != 0x00#8 && p.driverAddress != 0xFF#8 && p.driverAddress != own),
    (0x31#8, p.sinkAddress != 0xFF#8 && p.sinkAddress != own),
    (0x32#8, inRange 10 p.retransmitMs 1000),
    (0x33#8, inRange 2 p.silenceMs 250),
    (0x34#8, inRange 0 p.supplyLow 65535),
    (0x35#8, p.supplyLow == 0 || inRange p.supplyLow p.supplyOk 65535)]

/-- The field code of the first policy value that fails (R9). -/
def Policy.badField (p : Policy) (own : Byte) : Option Byte := firstFailure (p.checks own)

end Sys2Proof

namespace Sys2Proof.Machine

/-- A slot index in 0 to 31. -/
def slotOf (b : Byte) : Option SlotIndex := if h : b.toNat < 32 then some ⟨b.toNat, h⟩ else none

/-- A channel number in 0 to 15. -/
def channelOf (b : Byte) : Option ChannelId := if h : b.toNat < 16 then some ⟨b.toNat, h⟩ else none

/-- A map entry byte is a profile index or NONE (R7). -/
def mapEntryValid (b : Byte) : Bool := decide (b.toNat < 32) || b == 0xFF#8

/-- The field code of the first bad map entry: 20H plus its channel (R7, 10.4). -/
def badMapEntry (entries : Vector Byte 16) : Option Byte :=
  (entries.toList.findIdx? fun b => !mapEntryValid b).map fun k => BitVec.ofNat 8 (0x20 + k)

/-- The map that valid entries spell, channel 0 first: a slot, or NONE for FFH (R7). -/
def mapOfBytes (entries : Vector Byte 16) : Vector (Option SlotIndex) 16 :=
  ⟨(entries.toList.map slotOf).toArray, by simp⟩

/-- The lowest channel whose map entry names an EMPTY slot (R13). -/
def Bank.inconsistentChannel (b : Bank) : Option ChannelId :=
  allChannels.find? fun ch =>
    match b.map[ch.val] with
    | some slot => b.slots[slot.val].isNone
    | none => false

/-- The generation behind another: 65535 is followed by 1 (R13). -/
def nextGeneration (g : Half) : Half := if g = 0xFFFF#16 then 1 else g + 1

/-- A bank with one slot replaced (R5, R6). -/
def Bank.setSlot (b : Bank) (slot : SlotIndex) (p : Option Profile) : Bank :=
  { b with slots := b.slots.set slot.val p }

end Sys2Proof.Machine
end

