-- ==== Sys2Proof/Machine/Management.lean ====
section
/-! DEFINITION. The management unit: what each request does (R146 to R160), and the handling of a delivered request
(R140): cache lookup, room check, execution. -/

namespace Sys2Proof.Machine

/-- The status codes (R142, 10.5). -/
inductive Status where
  | ok
  | badRequest
  | badIndex
  | badValue
  | noSession
  | held
  | inconsistent
  | notSink
  | stale
  deriving DecidableEq, Repr

/-- The numeric code of a status (10.5). -/
def Status.code : Status → Byte
  | .ok => 0x00#8
  | .badRequest => 0x01#8
  | .badIndex => 0x02#8
  | .badValue => 0x03#8
  | .noSession => 0x04#8
  | .held => 0x05#8
  | .inconsistent => 0x06#8
  | .notSink => 0x07#8
  | .stale => 0x08#8

/-- What executing a request yields: the state after its effect, the status and the results (R139). -/
structure Reply where
  state : State
  status : Status
  results : List Byte
  deriving DecidableEq, Repr

/-- An answer that changes nothing. -/
def State.answer (s : State) (status : Status) (results : List Byte := []) : Reply := ⟨s, status, results⟩

/-- The authority check of R147: NO_SESSION, HELD, or the holder's session. -/
def State.underSession (s : State) (source : Byte) (act : Session → Reply) : Reply :=
  match s.session with
  | none => s.answer .noSession
  | some session => if session.holder = source then act session else s.answer .held

/-- The bank a table read names: SHADOW under the authority check (R12, R147). -/
def State.readBank (s : State) (source : Byte) (bank : BankName) (act : Bank → Reply) : Reply :=
  match bank with
  | .active => act s.active
  | .shadow => s.underSession source fun session => act session.shadow

/-- The ticks of a lease (R148). -/
def leaseTicks : Nat := 2000

/-- The holder as IDENTIFY returns it: presence and address (R184). -/
def State.holderBytes (s : State) : List Byte :=
  match s.session with
  | some session => [0x01#8, session.holder]
  | none => [0x00#8, 0x00#8]

/-- IDENTIFY (R152): part code 4C16H, revision code 01H (10.5). -/
def State.doIdentify (s : State) : Reply :=
  s.answer .ok
    ([0x4C#8, 0x16#8, 0x01#8, s.ownAddress] ++ halfBytes s.generation ++ s.holderBytes ++ [s.report.sender.code])

/-- READ_CHANNEL (R153). -/
def State.doReadChannel (s : State) (channel : Byte) : Reply :=
  match channelOf channel with
  | some ch => s.answer .ok ((s.channel ch).bytes ch)
  | none => s.answer .badIndex

/-- READ_PROFILE (R12). -/
def State.doReadProfile (s : State) (source : Byte) (bank : BankName) (slot : Byte) : Reply :=
  s.readBank source bank fun b =>
    match slotOf slot with
    | some i => s.answer .ok (bank.code :: slot :: slotBytes b.slots[i.val])
    | none => s.answer .badIndex

/-- READ_MAP (R12). -/
def State.doReadMap (s : State) (source : Byte) (bank : BankName) : Reply :=
  s.readBank source bank fun b => s.answer .ok (bank.code :: b.map.toList.map mapByte)

/-- READ_POLICY (R12). -/
def State.doReadPolicy (s : State) (source : Byte) (bank : BankName) : Reply :=
  s.readBank source bank fun b => s.answer .ok (bank.code :: b.policy.bytes)

/-- The counters of a group at 0 (R158). -/
def State.clearGroup (s : State) : CounterGroup → State
  | .port =>
    { s with cPort := s.cPort.clearCounters, dPort := s.dPort.clearCounters, misaddressed := 0 }
  | .monitor => { s with monitor := Monitor.reset }

/-- The values of a group (10.5). -/
def State.groupBytes (s : State) : CounterGroup → List Byte
  | .port => s.portGroup
  | .monitor => s.monitorGroup

/-- READ_COUNTERS (R158): the values are taken before any clearing. -/
def State.doReadCounters (s : State) (group : CounterGroup) (clear : Bool) : Reply where
  state := if clear then s.clearGroup group else s
  status := .ok
  results := group.code :: flagByte clear :: s.groupBytes group

/-- OPEN_SESSION (R146, R10). -/
def State.doOpenSession (s : State) (source : Byte) : Reply :=
  match s.session with
  | none =>
    { state := { s with session := some { holder := source, lease := leaseTicks, shadow := s.active } }
      status := .ok
      results := 0x00#8 :: halfBytes s.generation }
  | some session =>
    if session.holder = source then s.answer .ok (0x01#8 :: halfBytes s.generation) else s.answer .held

/-- The holder's SHADOW replaced (R12). -/
def State.withShadow (s : State) (session : Session) (shadow : Bank) : State :=
  { s with session := some { session with shadow } }

/-- WRITE_PROFILE (R5). -/
def State.doWriteProfile (s : State) (source slot : Byte) (p : Profile) : Reply :=
  s.underSession source fun session =>
    match slotOf slot with
    | none => s.answer .badIndex
    | some i =>
      match p.badField with
      | some code => s.answer .badValue [code]
      | none => ⟨s.withShadow session (session.shadow.setSlot i (some p)), .ok, []⟩

/-- CLEAR_PROFILE (R6). -/
def State.doClearProfile (s : State) (source slot : Byte) : Reply :=
  s.underSession source fun session =>
    match slotOf slot with
    | none => s.answer .badIndex
    | some i => ⟨s.withShadow session (session.shadow.setSlot i none), .ok, []⟩

/-- WRITE_MAP (R7). -/
def State.doWriteMap (s : State) (source : Byte) (entries : Vector Byte 16) : Reply :=
  s.underSession source fun session =>
    match badMapEntry entries with
    | some code => s.answer .badValue [code]
    | none => ⟨s.withShadow session { session.shadow with map := mapOfBytes entries }, .ok, []⟩

/-- WRITE_POLICY (R9). -/
def State.doWritePolicy (s : State) (source : Byte) (p : Policy) : Reply :=
  s.underSession source fun session =>
    match p.badField s.ownAddress with
    | some code => s.answer .badValue [code]
    | none => ⟨s.withShadow session { session.shadow with policy := p }, .ok, []⟩

/-- An accepted commit, in the order of R14: the bank, the generation, the sink change with the retransmit_ms now in
force (log entry 20), GENERATION, the end of the session. -/
def State.changeOver (s : State) (shadow : Bank) : State :=
  let generation := nextGeneration s.generation
  let report :=
    if shadow.policy.sinkAddress = s.active.policy.sinkAddress then s.report
    else s.report.changeSink shadow.policy.sinkAddress shadow.policy.retransmitMs
  let s := { s with active := shadow, generation, report, session := none }
  s.hand [.generation generation]

/-- COMMIT (R13, R14, R155). -/
def State.doCommit (s : State) (source : Byte) : Reply :=
  s.underSession source fun session =>
    match session.shadow.inconsistentChannel with
    | some ch => s.answer .inconsistent [byteOf ch.val]
    | none => ⟨s.changeOver session.shadow, .ok, halfBytes (nextGeneration s.generation)⟩

/-- CLOSE_SESSION (R151, R155). -/
def State.doCloseSession (s : State) (source : Byte) : Reply :=
  s.underSession source fun _ => ⟨{ s with session := none }, .ok, []⟩

/-- The disposition of a LOCKED channel after UNLOCK (R35). -/
def Channel.unlocked (c : Channel) : Channel :=
  { c with disposition := if c.pendingInjection then .tripped else .open_, failCount := 0 }

/-- UNLOCK_CHANNEL at the channel tracker (R35, R36). -/
def State.unlock (s : State) (ch : ChannelId) : State :=
  if (s.channel ch).disposition = .locked then
    (s.setChannel ch (s.channel ch).unlocked).hand [.unlocked ch]
  else s

/-- UNLOCK_CHANNEL (R156): authority first, then the channel. -/
def State.doUnlockChannel (s : State) (source channel : Byte) : Reply :=
  s.underSession source fun _ =>
    match channelOf channel with
    | none => s.answer .badIndex
    | some ch => ⟨s.unlock ch, .ok, [channel, ((s.unlock ch).channel ch).disposition.code]⟩

/-- ACK_REPORTS (R157, R130, R131). -/
def State.doAckReports (s : State) (source : Byte) (number : Half) : Reply :=
  let policy := s.active.policy
  if policy.sinkAddress = 0x00#8 ∨ source ≠ policy.sinkAddress then s.answer .notSink
  else
    match s.report.acknowledge number policy.retransmitMs with
    | some report => ⟨{ s with report }, .ok, [byteOf report.window.length]⟩
    | none =>
      ⟨{ s with monitor := { s.monitor with staleAck := s.monitor.staleAck + 1 } }, .stale, []⟩

/-- Steps 1 to 6 of the warm restart (R160): session, channels, observer, report queue, response queue, reply cache.
-/
def State.restart (s : State) : State :=
  let t := State.restartChannels { s with session := none }
  { t with
    observer := Observer.reset
    report := ReportQueue.restart t.active.policy.sinkAddress t.generation
    monitor :=
      { t.monitor with
        responseDiscarded := t.monitor.responseDiscarded + BitVec.ofNat 32 t.responses.length }
    responses := []
    cache := [] }

/-- WARM_RESTART (R160). -/
def State.doWarmRestart (s : State) (source : Byte) : Reply :=
  s.underSession source fun _ => ⟨s.restart, .ok, halfBytes s.generation⟩

/-- The execution of a well-formed request (R142). -/
def State.perform (s : State) (source : Byte) : Request → Reply
  | .identify => s.doIdentify
  | .readChannel channel => s.doReadChannel channel
  | .readProfile bank slot => s.doReadProfile source bank slot
  | .readMap bank => s.doReadMap source bank
  | .readPolicy bank => s.doReadPolicy source bank
  | .readCounters group clear => s.doReadCounters group clear
  | .openSession => s.doOpenSession source
  | .writeProfile slot profile => s.doWriteProfile source slot profile
  | .clearProfile slot => s.doClearProfile source slot
  | .writeMap entries => s.doWriteMap source entries
  | .writePolicy policy => s.doWritePolicy source policy
  | .commit => s.doCommit source
  | .closeSession => s.doCloseSession source
  | .unlockChannel channel => s.doUnlockChannel source channel
  | .ackReports number => s.doAckReports source number
  | .warmRestart => s.doWarmRestart source

/-- The lease starts again at each executed request of the source that holds the session after it (R148). -/
def State.renewLease (s : State) (source : Byte) : State :=
  match s.session with
  | some session =>
    if session.holder = source then { s with session := some { session with lease := leaseTicks } } else s
  | none => s

/-- The entry of a request in the cache: same source and same last tag (R140 step 1). -/
def State.cached (s : State) (source tag : Byte) : Option CacheEntry :=
  s.cache.find? fun e => e.source == source && e.tag == tag

/-- The entry becomes the most recently used; a fifth entry drops the least recently used (R144). -/
def cacheInsert (cache : List CacheEntry) (e : CacheEntry) : List CacheEntry :=
  (e :: cache.filter fun x => x.source != e.source).take cacheCapacity

/-- A repeat: answered from the cache, or dropped for lack of room (R143). -/
def State.replay (s : State) (e : CacheEntry) : State :=
  if s.responses.length < responseCapacity then
    { s with
      responses := s.responses ++ [e.response]
      cache := cacheInsert s.cache e
      monitor := { s.monitor with replay := s.monitor.replay + 1 } }
  else { s with monitor := { s.monitor with replayDropped := s.monitor.replayDropped + 1 } }

/-- The MGMT_RESPONSE frame of an executed request (R139). -/
def responseFrame (own source tag kind : Byte) (status : Status) (results : List Byte) : Frame :=
  Frame.build Frame.responseKind source own tag (kind :: status.code :: results)

/-- The end of an execution: the lease, the cache entry, the response at the back of its queue (R140, R144, R148). -/
def Reply.finish (r : Reply) (source tag kind : Byte) : State :=
  let s := r.state.renewLease source
  let response := responseFrame s.ownAddress source tag kind r.status r.results
  { s with
    cache := cacheInsert s.cache { source, tag, response }
    responses := s.responses ++ [response] }

/-- Step 3 of R140: counted, checked, performed, answered. A malformed request is `none` and is answered BAD_REQUEST
(R141). -/
def State.executeRequest (s : State) (source tag kind : Byte) (request : Option Request) : State :=
  let s := { s with monitor := { s.monitor with requestExecuted := s.monitor.requestExecuted + 1 } }
  let reply :=
    match request with
    | some r => s.perform source r
    | none => s.answer .badRequest
  reply.finish source tag kind

/-- The handling of a delivered request, in the order of R140: a repeat, a drop for lack of room, or an execution. -/
def State.manage (s : State) (source tag kind : Byte) (request : Option Request) : State :=
  match s.cached source tag with
  | some e => s.replay e
  | none =>
    if s.responses.length < responseCapacity then s.executeRequest source tag kind request
    else { s with monitor := { s.monitor with requestDropped := s.monitor.requestDropped + 1 } }

/-- The received counter of the C-port (R164). -/
def State.countReceivedC (s : State) : State :=
  { s with cPort := { s.cPort with received := s.cPort.received + 1 } }

/-- A valid MGMT_REQUEST frame for the own address received on the C-port (R164, R165), with the arbiters' selections
behind it (R168, R170); a DOWN port receives nothing (R163; log entry 8). -/
def State.receiveRequest (s : State) (source tag : Byte) (request : Request) : State :=
  if s.cPort.up then (s.countReceivedC.manage source tag request.code (some request)).arbitrate else s

end Sys2Proof.Machine
end

