-- ==== Sys2Proof/Machine/Receipt.lean ====
section
/-! DEFINITION. The meanings of C_PORT_RECEIPT and D_PORT_RECEIPT. -/

namespace Sys2Proof.Machine

/-- The request-kind byte that a response repeats: that of the payload, 00H for an empty one (R139). -/
def requestKindByte : List Byte → Byte
  | kind :: _ => kind
  | [] => 0x00#8

/-- The classification of a valid frame received on the C-port (R165). -/
def State.classifyC (s : State) (f : Frame) : State :=
  if f.destination = s.ownAddress then
    if f.kind = Frame.requestKind then
      s.manage f.source f.sequence (requestKindByte f.payload) (decodeRequest f.payload)
    else { s with misaddressed := s.misaddressed + 1 }
  else s.offerDfq f

/-- The bytes of a frame received whole on the C-port, the port UP (R164, R165), with the arbiters' selections behind
a valid frame (R168, R170). -/
def State.receiveC (s : State) (bytes : List Byte) : State :=
  match checkFrame bytes with
  | .badSize => { s with cPort := { s.cPort with lengthError := s.cPort.lengthError + 1 } }
  | .badCrc => { s with cPort := { s.cPort with crcError := s.cPort.crcError + 1 } }
  | .badLength => { s with cPort := { s.cPort with lengthError := s.cPort.lengthError + 1 } }
  | .valid f => (s.countReceivedC.classifyC f).arbitrate

/-- C_PORT_RECEIPT (R164, R165); a DOWN port receives no frame (R163; log entry 4). -/
def execCPortReceipt (bytes : List Byte) (s : State) : Host.Outcome State Fault Refusal :=
  .next (if s.cPort.up then s.receiveC bytes else s)

/-- The received counter of the D-port (R164). -/
def State.countReceivedD (s : State) : State :=
  { s with dPort := { s.dPort with received := s.dPort.received + 1 } }

/-- A valid frame received on the D-port: observed if it is a SAMPLE frame, then offered to the UFQ (R166). -/
def State.classifyD (s : State) (f : Frame) : State :=
  let observed := if f.kind = Frame.sampleKind then s.observe f.payload else s
  observed.offerUfq f

/-- The bytes of a frame received whole on the D-port, the port UP (R164, R166). A CRC-valid frame is a sign of life
whatever its length field says (R101). The arbiters' selections follow (R168, R170). -/
def State.receiveD (s : State) (bytes : List Byte) : State :=
  match checkFrame bytes with
  | .badSize => { s with dPort := { s.dPort with lengthError := s.dPort.lengthError + 1 } }
  | .badCrc => { s with dPort := { s.dPort with crcError := s.dPort.crcError + 1 } }
  | .badLength =>
    let alive := s.signOfLife
    State.arbitrate { alive with dPort := { alive.dPort with lengthError := alive.dPort.lengthError + 1 } }
  | .valid f => (s.signOfLife.countReceivedD.classifyD f).arbitrate

/-- D_PORT_RECEIPT (R164, R166); a DOWN port receives no frame (R163; log entry 4). -/
def execDPortReceipt (bytes : List Byte) (s : State) : Host.Outcome State Fault Refusal :=
  .next (if s.dPort.up then s.receiveD bytes else s)

end Sys2Proof.Machine
end

