-- ==== Sys2Proof/Machine/Requests.lean ====
section
/-! DEFINITION. The meanings of the sixteen management requests: the receipt on the C-port of a valid MGMT_REQUEST
frame from `source` with tag `tag` that carries the request (R139, R140, R165; log entry 8). What a request does at
its block is the `State.do…` definition of its kind in Machine/Management.lean. -/

namespace Sys2Proof.Machine

/-- IDENTIFY (R152). -/
def execIdentify (source tag : Byte) (s : State) : Host.Outcome State Fault Refusal :=
  .next (s.receiveRequest source tag .identify)

/-- READ_CHANNEL (R153). -/
def execReadChannel (source tag channel : Byte) (s : State) : Host.Outcome State Fault Refusal :=
  .next (s.receiveRequest source tag (.readChannel channel))

/-- READ_PROFILE (R12, R154). -/
def execReadProfile (source tag : Byte) (bank : BankName) (slot : Byte) (s : State) :
    Host.Outcome State Fault Refusal :=
  .next (s.receiveRequest source tag (.readProfile bank slot))

/-- READ_MAP (R12, R154). -/
def execReadMap (source tag : Byte) (bank : BankName) (s : State) : Host.Outcome State Fault Refusal :=
  .next (s.receiveRequest source tag (.readMap bank))

/-- READ_POLICY (R12, R154). -/
def execReadPolicy (source tag : Byte) (bank : BankName) (s : State) : Host.Outcome State Fault Refusal :=
  .next (s.receiveRequest source tag (.readPolicy bank))

/-- READ_COUNTERS (R158, R159). -/
def execReadCounters (source tag : Byte) (group : CounterGroup) (clear : Bool) (s : State) :
    Host.Outcome State Fault Refusal :=
  .next (s.receiveRequest source tag (.readCounters group clear))

/-- OPEN_SESSION (R146, R10). -/
def execOpenSession (source tag : Byte) (s : State) : Host.Outcome State Fault Refusal :=
  .next (s.receiveRequest source tag .openSession)

/-- WRITE_PROFILE (R5, R154). -/
def execWriteProfile (source tag slot : Byte) (profile : Profile) (s : State) : Host.Outcome State Fault Refusal :=
  .next (s.receiveRequest source tag (.writeProfile slot profile))

/-- CLEAR_PROFILE (R6, R154). -/
def execClearProfile (source tag slot : Byte) (s : State) : Host.Outcome State Fault Refusal :=
  .next (s.receiveRequest source tag (.clearProfile slot))

/-- WRITE_MAP (R7, R154). -/
def execWriteMap (source tag : Byte) (entries : Vector Byte 16) (s : State) : Host.Outcome State Fault Refusal :=
  .next (s.receiveRequest source tag (.writeMap entries))

/-- WRITE_POLICY (R9, R154). -/
def execWritePolicy (source tag : Byte) (policy : Policy) (s : State) : Host.Outcome State Fault Refusal :=
  .next (s.receiveRequest source tag (.writePolicy policy))

/-- COMMIT (R13, R14, R155). -/
def execCommit (source tag : Byte) (s : State) : Host.Outcome State Fault Refusal :=
  .next (s.receiveRequest source tag .commit)

/-- CLOSE_SESSION (R151, R155). -/
def execCloseSession (source tag : Byte) (s : State) : Host.Outcome State Fault Refusal :=
  .next (s.receiveRequest source tag .closeSession)

/-- UNLOCK_CHANNEL (R35, R36, R156). -/
def execUnlockChannel (source tag channel : Byte) (s : State) : Host.Outcome State Fault Refusal :=
  .next (s.receiveRequest source tag (.unlockChannel channel))

/-- ACK_REPORTS (R130, R131, R157). -/
def execAckReports (source tag : Byte) (number : Half) (s : State) : Host.Outcome State Fault Refusal :=
  .next (s.receiveRequest source tag (.ackReports number))

/-- WARM_RESTART (R160). -/
def execWarmRestart (source tag : Byte) (s : State) : Host.Outcome State Fault Refusal :=
  .next (s.receiveRequest source tag .warmRestart)

end Sys2Proof.Machine
end

