-- ==== Sys2Proof/Machine/Dispatch.lean ====
section
/-! DEFINITION. The meaning of every command, one arm per row of spec/opcode_table.json. -/

namespace Sys2Proof.Machine

-- A command's effect on everything but the queue of waiting commands.
def exec (i : Instr) (s : State) : Host.Outcome State Fault Refusal :=
  match i with
  | .coldReset straps => Sys2Proof.Machine.execColdReset straps s
  | .linkLossD => Sys2Proof.Machine.execLinkLossD s
  | .linkLossC => Sys2Proof.Machine.execLinkLossC s
  | .linkReturn port => Sys2Proof.Machine.execLinkReturn port s
  | .cPortReceipt bytes => Sys2Proof.Machine.execCPortReceipt bytes s
  | .dPortReceipt bytes => Sys2Proof.Machine.execDPortReceipt bytes s
  | .judgedDeparture => Sys2Proof.Machine.execJudgedDeparture s
  | .dPortDeparture => Sys2Proof.Machine.execDPortDeparture s
  | .injectedDeparture => Sys2Proof.Machine.execInjectedDeparture s
  | .responseDeparture => Sys2Proof.Machine.execResponseDeparture s
  | .reportDeparture => Sys2Proof.Machine.execReportDeparture s
  | .ufqDeparture => Sys2Proof.Machine.execUfqDeparture s
  | .transmissionComplete port => Sys2Proof.Machine.execTransmissionComplete port s
  | .silenceExpiry => Sys2Proof.Machine.execSilenceExpiry s
  | .retransmitExpiry => Sys2Proof.Machine.execRetransmitExpiry s
  | .leaseExpiry => Sys2Proof.Machine.execLeaseExpiry s
  | .identify source tag => Sys2Proof.Machine.execIdentify source tag s
  | .readChannel source tag channel => Sys2Proof.Machine.execReadChannel source tag channel s
  | .readProfile source tag bank slot => Sys2Proof.Machine.execReadProfile source tag bank slot s
  | .readMap source tag bank => Sys2Proof.Machine.execReadMap source tag bank s
  | .readPolicy source tag bank => Sys2Proof.Machine.execReadPolicy source tag bank s
  | .readCounters source tag group clear => Sys2Proof.Machine.execReadCounters source tag group clear s
  | .openSession source tag => Sys2Proof.Machine.execOpenSession source tag s
  | .writeProfile source tag slot profile => Sys2Proof.Machine.execWriteProfile source tag slot profile s
  | .clearProfile source tag slot => Sys2Proof.Machine.execClearProfile source tag slot s
  | .writeMap source tag entries => Sys2Proof.Machine.execWriteMap source tag entries s
  | .writePolicy source tag policy => Sys2Proof.Machine.execWritePolicy source tag policy s
  | .commit source tag => Sys2Proof.Machine.execCommit source tag s
  | .closeSession source tag => Sys2Proof.Machine.execCloseSession source tag s
  | .unlockChannel source tag channel => Sys2Proof.Machine.execUnlockChannel source tag channel s
  | .ackReports source tag number => Sys2Proof.Machine.execAckReports source tag number s
  | .warmRestart source tag => Sys2Proof.Machine.execWarmRestart source tag s

end Sys2Proof.Machine
end

