-- ==== Sys2Proof/Machine/Idle.lean ====
section
/-! DEFINITION. What the L16 does by itself when no command waits (log entry 5): the expiry of a timer whose ticks have
passed, and otherwise the 1 ms housekeeping tick (R179). Departures are part of the event that selects them. -/

namespace Sys2Proof.Machine

/-- The expiries that are due: of the timers whose ticks have passed (R102, R126, R148). -/
def State.due (s : State) : List Instr :=
  (if s.silenceDue then [.silenceExpiry] else []) ++ (if s.retransmitDue then [.retransmitExpiry] else []) ++
    (if s.leaseDue then [.leaseExpiry] else [])

/-- The housekeeping tick: each running timer has one tick less to go (R102, R126, R148, R179). -/
def State.tick (s : State) : State :=
  { s with
    observer := { s.observer with silenceTimer := s.observer.silenceTimer.map (· - 1) }
    report := { s.report with retransmitTimer := s.report.retransmitTimer.map (· - 1) }
    session := s.session.map fun session => { session with lease := session.lease - 1 } }

/-- What the part does when no command waits: one expiry that is due, in a free order where several are (log entry 7),
otherwise one tick. -/
def State.idle (s : State) : Host.Outcome State Fault Refusal :=
  match s.due with
  | [] => .next s.tick
  | [c] => exec c s
  | c :: d :: rest =>
    let all := c :: d :: rest
    exec (all.getD (Config.freeOrder s.freeCount % all.length) c) { s with freeCount := s.freeCount + 1 }

end Sys2Proof.Machine
end

