-- ==== Sys2Proof/Safety.lean ====
section
/-! DEFINITION. What the spec says holds in every state the L16 reaches: the sound states of each block. -/

namespace Sys2Proof

/-- The requests that only the session holder may have executed (R147). -/
def Request.holderOnly : Request → Bool
  | .readProfile bank _ => bank == .shadow
  | .readMap bank => bank == .shadow
  | .readPolicy bank => bank == .shadow
  | .writeProfile _ _ => true
  | .clearProfile _ => true
  | .writeMap _ => true
  | .writePolicy _ => true
  | .commit => true
  | .closeSession => true
  | .unlockChannel _ => true
  | .warmRestart => true
  | .identify => false
  | .readChannel _ => false
  | .readCounters _ _ => false
  | .openSession => false
  | .ackReports _ => false

end Sys2Proof

namespace Sys2Proof.Machine

/-- A channel context is sound: R40 (where an episode stands), R24 (where an injection can be pending), R18 (a
snapshot is held by an energized channel) and R69 (the range of the fail count). -/
abbrev Channel.Sound (c : Channel) : Prop :=
  (c.episode.isSome → c.energized = true ∧ c.snapshot.isSome ∧ c.disposition = .open_) ∧
    (c.pendingInjection = true → c.energized = true ∧ c.disposition ≠ .open_) ∧
    (c.snapshot.isSome → c.energized = true) ∧ c.failCount ≤ 15

/-- Every channel context is sound. -/
abbrev State.ChannelsSound (s : State) : Prop := ∀ ch : ChannelId, (s.channel ch).Sound

/-- The five counters of a channel balance: opened is the sum of the class counters, plus one while an episode is
open, modulo 2³² (R68). -/
abbrev Channel.Balanced (c : Channel) : Prop :=
  c.opened = c.passed + c.failed + c.neutral + (if c.episode.isSome then 1 else 0)

/-- Every channel's counters balance. -/
abbrev State.ChannelsBalanced (s : State) : Prop := ∀ ch : ChannelId, (s.channel ch).Balanced

/-- The observer is sound: while SILENT the reference is absent and the timer stopped (R100), and the timer runs while
ACTIVE (R101, R103). -/
abbrev Observer.Sound (o : Observer) : Prop :=
  (o.activity = .silent → o.reference = none ∧ o.silenceTimer = none) ∧
    (o.activity = .active → o.silenceTimer.isSome)

/-- An episode can be open: the driver ACTIVE, the supply OK, a reference present (R41). -/
abbrev Observer.Trusts (o : Observer) : Prop :=
  o.activity = .active ∧ o.supply = .ok ∧ o.reference.isSome

/-- The observer is sound, an open episode on any channel implies that the observer trusts the stream (R41, R100), and
the observer is SILENT while the D-port is DOWN (R112). -/
abbrev State.StreamSound (s : State) : Prop :=
  s.observer.Sound ∧ (∀ ch : ChannelId, (s.channel ch).episode.isSome → s.observer.Trusts) ∧
    (s.dPort.up = false → s.observer.activity = .silent)

/-- The places and bounds of the report queue: R118 (48 records, 8 in the window), R123 (the cursor), R120 and R121
(the loss count stands only at a full queue), R127 (the retry count). -/
abbrev ReportQueue.Bounded (q : ReportQueue) : Prop :=
  q.total ≤ queueCapacity ∧ q.window.length ≤ windowCapacity ∧ q.cursor ≤ q.window.length ∧ q.lossCount ≤ 65535 ∧
    (q.lossCount ≠ 0 → q.total = queueCapacity) ∧ q.retryCount ≤ 5

/-- The window bears consecutive numbers modulo 65536, up to the next-sequence value less one (R125). -/
abbrev ReportQueue.Numbered (q : ReportQueue) : Prop :=
  q.window.map SentRecord.number =
    (List.range q.window.length).map fun k => q.nextSequence - BitVec.ofNat 16 (q.window.length - k)

/-- The retransmit timer runs in READY exactly while the window holds records, and in no other state (R122, R126). -/
abbrev ReportQueue.TimerSound (q : ReportQueue) : Prop :=
  (q.sender = .ready → (q.retransmitTimer.isSome ↔ q.window ≠ [])) ∧ (q.sender ≠ .ready → q.retransmitTimer = none)

/-- The unsent part holds at most one BLOCKED record per channel and at most one MALFORMED record (R119). -/
abbrev ReportQueue.Coalesced (q : ReportQueue) : Prop :=
  q.unsent.Pairwise fun a b => a.coalesces b = false

/-- The report queue is sound, and the sender is in NO_SINK exactly while the sink address in force is 00H (R122). -/
abbrev State.ReportSound (s : State) : Prop :=
  s.report.Bounded ∧ s.report.Numbered ∧ s.report.TimerSound ∧ s.report.Coalesced ∧
    (s.report.sender = .noSink ↔ s.active.policy.sinkAddress = 0x00#8)

/-- A bank is valid: every record and the policy pass the checks of R5 and R9. -/
abbrev Bank.Valid (b : Bank) (own : Byte) : Prop :=
  (∀ i : SlotIndex, ∀ p ∈ b.slots[i.val], p.badField = none) ∧ b.policy.badField own = none

/-- Both banks and every snapshot hold records that passed their checks (R2 to R9), and every ACTIVE map entry that is
not NONE names a slot that holds a profile (R14). -/
abbrev State.TablesSound (s : State) : Prop :=
  s.active.Valid s.ownAddress ∧ (∀ session ∈ s.session, session.shadow.Valid s.ownAddress) ∧
    (∀ ch : ChannelId, ∀ sn ∈ (s.channel ch).snapshot, sn.profile.badField = none) ∧
    s.active.inconsistentChannel = none

/-- The generation is 0 only while ACTIVE maps no channel, and no snapshot carries generation 0 (R13). -/
abbrev State.GenerationSound (s : State) : Prop :=
  (s.generation = 0 → ∀ ch : ChannelId, s.active.map[ch.val] = none) ∧
    (∀ ch : ChannelId, ∀ sn ∈ (s.channel ch).snapshot, sn.generation ≠ 0)

/-- The queues of frames and the cache keep their capacities, and no two cache entries have the same source (R143,
R145, R167). -/
abbrev State.QueuesBounded (s : State) : Prop :=
  s.dfq.length ≤ forwardCapacity ∧ s.ufq.length ≤ forwardCapacity ∧ s.responses.length ≤ responseCapacity ∧
    s.cache.length ≤ cacheCapacity ∧ (s.cache.map CacheEntry.source).Nodup

/-- A frame's check sequence is the one computed over its header and payload (R180). -/
abbrev frameIntact (f : Frame) : Prop := f.crc = crc16 f.body

/-- Every frame that waits or is in transmission has a correct check sequence: a damaged one never leaves the L16
(chapter 9). -/
abbrev State.FramesIntact (s : State) : Prop :=
  (∀ f ∈ s.dfq, frameIntact f) ∧ (∀ f ∈ s.ufq, frameIntact f) ∧ (∀ f ∈ s.responses, frameIntact f) ∧
    (∀ e ∈ s.cache, frameIntact e.response) ∧ (∀ f ∈ s.dPort.sending, frameIntact f) ∧
    (∀ f ∈ s.cPort.sending, frameIntact f)

/-- The arbiters have acted on all that waits: a selection stands at a port, and is held, only where its departure has
been left to its row, which waits in the queue of commands; every other has departed (R168 to R171; log entry 3). -/
abbrev State.Arbitrated (s : State) : Prop :=
  s.dSelected = s.dStanding ∧ s.cSelected = s.cStanding ∧ (s.dStanding ≠ none → s.dHeld = true) ∧
    (s.cStanding ≠ none → s.cHeld = true)

/-- A DOWN port transmits nothing, and no response waits while the C-port is DOWN (R163, R173, R175). -/
abbrev State.PortsSound (s : State) : Prop :=
  (s.cPort.up = false → s.cPort.sending = none ∧ s.responses = []) ∧ (s.dPort.up = false → s.dPort.sending = none)

/-- The own address lies in 70H to 77H (R178). -/
abbrev State.AddressSound (s : State) : Prop := 0x70 ≤ s.ownAddress.toNat ∧ s.ownAddress.toNat ≤ 0x77

/-! The terms in which the statements speak of a request. -/

/-- A request of `source` with tag `tag` is executed and not turned away: the C-port is UP (R163), it is no repeat,
and the response queue has room (R140). -/
abbrev State.Deliverable (s : State) (source tag : Byte) : Prop :=
  s.cPort.up = true ∧ s.cached source tag = none ∧ s.responses.length < responseCapacity

/-- The session with its lease started again, if `source` holds it (R148). -/
def renewed (session : Option Session) (source : Byte) : Option Session :=
  session.map fun held => if held.holder = source then { held with lease := leaseTicks } else held

/-- The state with one executed request counted: the frame as received, the request as executed (R140, R164). -/
def State.counted (s : State) : State :=
  { s with
    cPort := { s.cPort with received := s.cPort.received + 1 }
    monitor := { s.monitor with requestExecuted := s.monitor.requestExecuted + 1 } }

/-- The state `s` with the bookkeeping of one executed request on it and nothing else: the request is counted, the
lease of the source starts again, the response is cached and queued, and the arbiters select (R140, R144, R148, R168,
R170). -/
def State.answered (s : State) (source tag kind : Byte) (status : Status) (results : List Byte) : State :=
  let response := responseFrame s.ownAddress source tag kind status results
  State.arbitrate
    { s.counted with
      session := renewed s.session source
      cache := cacheInsert s.cache { source, tag, response }
      responses := s.responses ++ [response] }

/-- The source holds the session, with this SHADOW and these lease ticks left. -/
abbrev State.Holds (s : State) (source : Byte) (session : Session) : Prop :=
  s.session = some session ∧ session.holder = source

/-- The report queue has a free place and no loss waits to be announced, so that a handed record that does not
coalesce is placed at the back (R118, R121). -/
abbrev ReportQueue.HasRoom (q : ReportQueue) (n : Nat) : Prop := q.total + n ≤ queueCapacity ∧ q.lossCount = 0

end Sys2Proof.Machine
end

