-- ==== Sys2Proof/WellFormed.lean ====
section
/-! DEFINITION. Well-formedness of a command: every number it carries fits the bytes that the layouts of 10.4 give
it. A value that fits its bytes and not its range is well formed, and is answered BAD_VALUE (R183). -/

namespace Sys2Proof

/-- The motion fields fit two bytes each (10.4). -/
def MotionGroup.fits (m : MotionGroup) : Bool :=
  decide (m.peakDrop < 65536) && decide (m.valleyRise < 65536) && decide (m.reactionMin < 65536) &&
    decide (m.reactionMax < 65536) && decide (m.travelMin < 65536) && decide (m.travelMax < 65536)

/-- The measure fields fit one, four and four bytes (10.4). -/
def MeasureGroup.fits (m : MeasureGroup) : Bool :=
  decide (m.window < 256) && decide (m.rMin < 4294967296) && decide (m.rMax < 4294967296)

/-- The core fields fit 2, 1, 2, 2, 2, 1, 1 and 1 bytes (10.4). -/
def Profile.coreFits (p : Profile) : Bool :=
  decide (p.openLevel < 65536) && decide (p.openDeadline < 256) && decide (p.hitLevel < 65536) &&
    decide (p.hitDeadline < 65536) && decide (p.ocLevel < 65536) && decide (p.settle < 256) &&
    decide (p.gapLimit < 256) && decide (p.lockAfter < 256)

/-- The whole record fits its layout (10.4). -/
def Profile.fits (p : Profile) : Bool :=
  p.coreFits && (p.motion.map MotionGroup.fits).getD true && (p.measure.map MeasureGroup.fits).getD true

/-- The policy fields fit 1, 1, 2, 1, 2 and 2 bytes (10.4). -/
def Policy.fits (p : Policy) : Bool :=
  decide (p.retransmitMs < 65536) && decide (p.silenceMs < 256) && decide (p.supplyLow < 65536) &&
    decide (p.supplyOk < 65536)

/-- A request is well formed when its numbers fit their bytes. -/
def Request.wellFormed : Request → Bool
  | .identify => true
  | .readChannel _ => true
  | .readProfile _ _ => true
  | .readMap _ => true
  | .readPolicy _ => true
  | .readCounters _ _ => true
  | .openSession => true
  | .writeProfile _ profile => profile.fits
  | .clearProfile _ => true
  | .writeMap _ => true
  | .writePolicy policy => policy.fits
  | .commit => true
  | .closeSession => true
  | .unlockChannel _ => true
  | .ackReports _ => true
  | .warmRestart => true

/-- A command is well formed when the request it carries, if any, is. Received bytes are never ill formed: the port
checks them itself (R164). -/
def Instr.wellFormed (i : Instr) : Bool :=
  match i.request? with
  | some (_, _, request) => request.wellFormed
  | none => true

end Sys2Proof
end

