-- ==== Sys2Proof/Certificates/Slice0/Obligations.lean ====
section
/-! DEFINITION. The statements for the provers. Each docstring names the rules of spec/ that it formalises. -/

open Sys2Proof Sys2Proof.Machine

/-! The step. -/

/-- A step with a command at the front of the queue is that command's effect on the state with the queue's rest. -/
def Obligations.StepRunsFrontCommand : Prop :=
  ∀ (c : Instr) (rest : List Instr) (s : State), step { s with pending := c :: rest } = exec c { s with pending := rest }

/-- Every command answers a next state, in every state, and leaves the queue of waiting commands as it is: no command
stops the part. That nothing stops the part is read from the spec, log entry 18, and that a command whose event cannot
occur leaves the state as it is is the model's choice, log entry 4. -/
def Obligations.EveryCommandAnswersANextState : Prop :=
  ∀ (c : Instr) (s : State), ∃ t : State, exec c s = .next t ∧ t.pending = s.pending

/-- With no command waiting, the step is the expiry of a timer whose ticks have passed, where one has (R102, R126,
R148). Where several have it is one of them, in a free order. That the idle step does so is the model's choice, log
entries 5 and 7. -/
def Obligations.IdleStepIsAnExpiryThatIsDue : Prop :=
  ∀ s : State, s.pending = [] →
    (∀ c, s.due = [c] → step s = exec c s) ∧
    (2 ≤ s.due.length → ∃ c ∈ s.due, step s = exec c { s with freeCount := s.freeCount + 1 }) ∧
    (∀ c, c ∈ s.due ↔
      c = .silenceExpiry ∧ s.observer.silenceTimer = some 0 ∨
      c = .retransmitExpiry ∧ s.report.retransmitTimer = some 0 ∨
      c = .leaseExpiry ∧ ∃ session, s.session = some session ∧ session.lease = 0)

/-- One housekeeping tick, with no command waiting and no timer due: each running timer has one
tick less to go, a stopped one stays stopped, and nothing else changes (R102, R126, R148, R179). That the idle step is
the tick is the model's choice, log entry 5. -/
def Obligations.IdleTickCountsTheTimers : Prop :=
  ∀ s : State, s.pending = [] → s.observer.silenceTimer ≠ some 0 → s.report.retransmitTimer ≠ some 0 →
    (∀ session, s.session = some session → session.lease ≠ 0) →
    ∃ t : State, step s = .next t ∧
      (∀ n, s.observer.silenceTimer = some (n + 1) → t.observer = { s.observer with silenceTimer := some n }) ∧
      (s.observer.silenceTimer = none → t.observer = s.observer) ∧
      (∀ n, s.report.retransmitTimer = some (n + 1) → t.report = { s.report with retransmitTimer := some n }) ∧
      (s.report.retransmitTimer = none → t.report = s.report) ∧
      (∀ session n, s.session = some session → session.lease = n + 1 →
        t.session = some { session with lease := n }) ∧
      (s.session = none → t.session = none) ∧
      t = { s with observer := t.observer, report := t.report, session := t.session }

/-! Reset and the links. -/

/-- What cold reset leaves: the own address from the straps, and every block at its cold-reset value (R1, R39, R65,
R84, R98, R100, R135, R162, R177, R178). That one command stands for assertion and release is the model's reading, log
entry 2. -/
def Obligations.ColdResetLeavesTheResetValues : Prop :=
  ∀ (straps : BitVec 3) (s : State), ∃ t : State, exec (.coldReset straps) s = .next t ∧
    t.ownAddress.toNat = 0x70 + straps.toNat ∧
    (∀ i : SlotIndex, t.active.slots[i.val] = none) ∧ (∀ ch : ChannelId, t.active.map[ch.val] = none) ∧
    t.active.policy = ⟨0x01, 0x00, 50, 20, 0, 0⟩ ∧ t.generation = 0 ∧ t.session = none ∧
    (∀ ch : ChannelId, t.channel ch = ⟨.open_, false, false, none, none, 0, 0, 0, 0, 0, 0⟩) ∧
    t.observer = ⟨none, .ok, .silent, none⟩ ∧ t.injectionCounter = 0 ∧
    t.report = ⟨[], [], 0, 1, 0, 0, none, .noSink⟩ ∧ t.cache = [] ∧ t.responses = [] ∧ t.dfq = [] ∧ t.ufq = [] ∧
    t.cPort = ⟨false, none, 0, 0, 0, 0, 0, 0, 0, 0⟩ ∧ t.dPort = ⟨false, none, 0, 0, 0, 0, 0, 0, 0, 0⟩ ∧
    t.misaddressed = 0 ∧ t.marker = .forward ∧ t.dSelected = none ∧ t.cSelected = none ∧
    t.monitor = ⟨0, 0, 0, 0, 0, 0, 0, 0, 0, 0, 0, 0, 0⟩ ∧
    t.faultLow = false ∧ t.pending = s.pending

/-- Link loss on the C-port while UP: the four steps of R175, the arbiters' selections (R168, R170), and nothing else.
-/
def Obligations.LinkLossCFlushesAndKeeps : Prop :=
  ∀ s : State, s.cPort.up = true →
    exec .linkLossC s = .next (State.arbitrate
      { s with
        cPort :=
          { s.cPort with
            up := false
            linkDown := s.cPort.linkDown + 1
            sending := none
            abandoned := s.cPort.abandoned + (if s.cPort.sending.isSome then 1 else 0)
            egressFlushed := s.cPort.egressFlushed + BitVec.ofNat 32 s.ufq.length }
        ufq := []
        responses := []
        monitor :=
          { s.monitor with
            responseDiscarded := s.monitor.responseDiscarded + BitVec.ofNat 32 s.responses.length } })

/-- Link loss on the D-port while UP: DOWN, the transmission abandoned, the DFQ flushed and counted, an ACTIVE driver
SILENT with its episodes closed, their VERDICT records VOID_SILENT in ascending channel order and DRIVER_SILENT behind
them; dispositions, flags, snapshots and fail counts are kept, and so is everything on the C-port side but for what
its arbiter selects (R79, R112, R170, R173, R174). -/
def Obligations.LinkLossDFlushesAndSilences : Prop :=
  ∀ s : State, s.dPort.up = true → s.ChannelsSound → ∃ t : State, exec .linkLossD s = .next t.arbitrate ∧
    t.dPort =
      { s.dPort with
        up := false
        linkDown := s.dPort.linkDown + 1
        sending := none
        abandoned := s.dPort.abandoned + (if s.dPort.sending.isSome then 1 else 0)
        egressFlushed := s.dPort.egressFlushed + BitVec.ofNat 32 s.dfq.length } ∧
    t.dfq = [] ∧
    (s.observer.activity = .active →
      t.observer = { s.observer with activity := .silent, reference := none, silenceTimer := none } ∧
      (∀ ch : ChannelId, t.channel ch =
        { s.channel ch with
          episode := none
          neutral := (s.channel ch).neutral + (if (s.channel ch).episode.isSome then 1 else 0) }) ∧
      t.report =
        (allChannels.foldl (fun q ch => q.hand ((s.channel ch).closeOutside ch .voidSilent).2) s.report).hand
          [.driverSilent]) ∧
    (s.observer.activity = .silent → t.observer = s.observer ∧ t.channels = s.channels ∧ t.report = s.report) ∧
    t = { s with dPort := t.dPort, dfq := t.dfq, observer := t.observer, channels := t.channels, report := t.report }

/-- A link return makes the port UP, its arbiter selects at once if its transmitter is free and a source waits, and
nothing else changes: on the D-port a standing injection before the DFQ head, on the C-port, whose response queue is
empty, a report or the UFQ head by the marker (R168, R170, R176). -/
def Obligations.LinkReturnMakesThePortUp : Prop :=
  (∀ s : State, ∃ t : State,
    exec (.linkReturn .dPort) s = .next t.arbitrate ∧ t = { s with dPort := { s.dPort with up := true } } ∧
    (s.dPort.sending = none → s.dSelected = none →
      t.dStanding = if s.injectionOffered then some .injection else if s.dfq = [] then none else some .queueHead)) ∧
  (∀ s : State, ∃ t : State,
    exec (.linkReturn .cPort) s = .next t.arbitrate ∧ t = { s with cPort := { s.cPort with up := true } } ∧
    (s.cPort.sending = none → s.cSelected = none → s.responses = [] →
      t.cStanding =
        if s.report.offer.isSome ∧ (s.ufq = [] ∨ s.marker = .forward) then some .report
        else if s.ufq = [] then none else some .forward))

/-- What the arbiters select: nothing on a port that is DOWN or transmits; a source selected before and left to its
row stands while it waits; otherwise the D-port arbiter selects an injection before the DFQ head, and the C-port
arbiter a response, then a report or the UFQ head by the marker (R92, R96, R163, R168, R170). That a selection can be
left to its row is the model's reading, log entry 3. -/
def Obligations.ArbitersSelectWhereASourceWaits : Prop :=
  ∀ s : State,
    (s.dPort.up = false ∨ s.dPort.sending ≠ none → s.dStanding = none) ∧
    (s.dPort.up = true → s.dPort.sending = none →
      (s.dSelected = some .queueHead → s.dfq ≠ [] → s.dStanding = some .queueHead) ∧
      (s.dSelected ≠ some .queueHead ∨ s.dfq = [] →
        ((∃ ch : ChannelId, (s.channel ch).pendingInjection = true) → s.dStanding = some .injection) ∧
        ((∀ ch : ChannelId, (s.channel ch).pendingInjection = false) →
          s.dStanding = if s.dfq = [] then none else some .queueHead))) ∧
    (s.cPort.up = false ∨ s.cPort.sending ≠ none → s.cStanding = none) ∧
    (s.cPort.up = true → s.cPort.sending = none →
      (s.cSelected = some .response → s.responses ≠ [] → s.cStanding = some .response) ∧
      (s.cSelected = some .report → s.report.offer ≠ none → s.cStanding = some .report) ∧
      (s.cSelected = some .forward → s.ufq ≠ [] → s.cStanding = some .forward) ∧
      ((s.cSelected = some .response → s.responses = []) → (s.cSelected = some .report → s.report.offer = none) →
        (s.cSelected = some .forward → s.ufq = []) →
        s.cStanding =
          if s.responses ≠ [] then some .response
          else if s.report.offer ≠ none ∧ (s.ufq = [] ∨ s.marker = .forward) then some .report
          else if s.ufq ≠ [] then some .forward else none))

/-- The selection is the departure: the arbiters' act at the end of an event is the departure, with all the effects of
its row, of what each has selected, on both ports in a free order; without a selection it changes nothing. A departure
is left to its row, and stays selected, only where that row waits in the queue of commands behind nothing but
departures and what can meet it: for a judged and for an injected one a D-port frame and UNLOCK_CHANNEL, for an
injected one also the silence expiry, READ_CHANNEL, COMMIT and WARM_RESTART, the requests as rows or as frames (R33,
R34, R37, R82, R96, R97, R161, R168 to R171). The last sentence is the model's reading, log entry 3, the free order
log entry 7. -/
def Obligations.SelectionIsTheDeparture : Prop :=
  ∀ s : State,
    let departures : List Instr :=
      [.judgedDeparture, .dPortDeparture, .injectedDeparture, .responseDeparture, .reportDeparture, .ufqDeparture]
    let asks := fun (c : Instr) (r : Request) =>
      (∃ source tag, c.request? = some (source, tag, r)) ∨
        ∃ bytes f, c = .cPortReceipt bytes ∧ checkFrame bytes = .valid f ∧ f.destination = s.ownAddress ∧
          f.kind = Frame.requestKind ∧ decodeRequest f.payload = some r
    let meets := fun (row c : Instr) =>
      (row = .judgedDeparture ∨ row = .injectedDeparture) ∧
        ((∃ bytes, c = .dPortReceipt bytes) ∨ ∃ channel, asks c (.unlockChannel channel)) ∨
      row = .injectedDeparture ∧
        (c = .silenceExpiry ∨ (∃ channel, asks c (.readChannel channel)) ∨ asks c .commit ∨ asks c .warmRestart)
    let dStays := s.dStanding = none ∨ s.dHeld = true
    let cStays := s.cStanding = none ∨ s.cHeld = true
    let counted := { s with freeCount := s.freeCount + 1 };
    (∀ row, s.dRow = some row ↔
      s.dStanding = some .injection ∧ row = .injectedDeparture ∨
      s.dStanding = some .queueHead ∧ ∃ f ∈ s.dfq.head?,
        row = if s.judges f = true then .judgedDeparture else .dPortDeparture) ∧
    (∀ row, s.cRow = some row ↔
      s.cStanding = some .response ∧ row = .responseDeparture ∨ s.cStanding = some .report ∧ row = .reportDeparture ∨
      s.cStanding = some .forward ∧ row = .ufqDeparture) ∧
    (s.dHeld = true ↔ ∃ row claims rest, s.dRow = some row ∧ s.pending = claims ++ row :: rest ∧
      ∀ c ∈ claims, c ∈ departures ∨ meets row c) ∧
    (s.cHeld = true ↔ ∃ row claims rest, s.cRow = some row ∧ s.pending = claims ++ row :: rest ∧
      ∀ c ∈ claims, c ∈ departures) ∧
    (dStays → cStays → s.arbitrate = { s with dSelected := s.dStanding, cSelected := s.cStanding }) ∧
    (∀ row, s.dRow = some row → s.dHeld = false → cStays → exec row s = .next s.arbitrate) ∧
    (∀ row, s.cRow = some row → s.cHeld = false → dStays → exec row s = .next s.arbitrate) ∧
    (∀ dRow cRow, s.dRow = some dRow → s.dHeld = false → s.cRow = some cRow → s.cHeld = false →
      exec dRow counted = .next s.arbitrate ∨ exec cRow counted = .next s.arbitrate)

/-- Completion frees the transmitter and counts the frame as transmitted, the arbiter selects again if a source waits,
and nothing else changes (R168, R170, R172). That the command changes nothing without a transmission is the model's
choice, log entry 4. -/
def Obligations.CompletionFreesTheTransmitter : Prop :=
  ∀ s : State,
    (∀ f, s.dPort.sending = some f → exec (.transmissionComplete .dPort) s =
      .next (State.arbitrate
        { s with dPort := { s.dPort with sending := none, transmitted := s.dPort.transmitted + 1 } })) ∧
    (∀ f, s.cPort.sending = some f → exec (.transmissionComplete .cPort) s =
      .next (State.arbitrate
        { s with cPort := { s.cPort with sending := none, transmitted := s.cPort.transmitted + 1 } })) ∧
    (s.dPort.sending = none → exec (.transmissionComplete .dPort) s = .next s) ∧
    (s.cPort.sending = none → exec (.transmissionComplete .cPort) s = .next s)

/-! Receipt. -/

/-- A frame of the wrong size, with a wrong check sequence, or whose length field is above 96 or differs from the
bytes received, is dropped and counted at its port and has no other effect, but that on the D-port a frame with a
correct check sequence starts the silence timer and ends a silence all the same (R101, R163, R164). On a DOWN port
nothing is received at all, where the command leaving the state as it is is the model's reading, log entry 4. -/
def Obligations.DamagedFramesAreDropped : Prop :=
  ∀ (s : State) (bytes : List Byte),
    (s.cPort.up = false → exec (.cPortReceipt bytes) s = .next s) ∧
    (s.dPort.up = false → exec (.dPortReceipt bytes) s = .next s) ∧
    (bytes.length < 7 ∨ 103 < bytes.length →
      (s.cPort.up = true → exec (.cPortReceipt bytes) s =
        .next { s with cPort := { s.cPort with lengthError := s.cPort.lengthError + 1 } }) ∧
      (s.dPort.up = true → exec (.dPortReceipt bytes) s =
        .next { s with dPort := { s.dPort with lengthError := s.dPort.lengthError + 1 } })) ∧
    (∀ (body : List Byte) (hi lo : Byte), bytes = body ++ [hi, lo] → 5 ≤ body.length → body.length ≤ 101 →
      crc16 body ≠ half2 hi lo →
      (s.cPort.up = true → exec (.cPortReceipt bytes) s =
        .next { s with cPort := { s.cPort with crcError := s.cPort.crcError + 1 } }) ∧
      (s.dPort.up = true → exec (.dPortReceipt bytes) s =
        .next { s with dPort := { s.dPort with crcError := s.dPort.crcError + 1 } })) ∧
    (∀ (kind destination source sequence size : Byte) (payload : List Byte) (hi lo : Byte),
      bytes = (kind :: destination :: source :: sequence :: size :: payload) ++ [hi, lo] → payload.length ≤ 96 →
      crc16 (kind :: destination :: source :: sequence :: size :: payload) = half2 hi lo →
      96 < size.toNat ∨ size.toNat ≠ bytes.length - 7 →
      (s.cPort.up = true → exec (.cPortReceipt bytes) s =
        .next { s with cPort := { s.cPort with lengthError := s.cPort.lengthError + 1 } }) ∧
      (s.dPort.up = true → exec (.dPortReceipt bytes) s =
        .next (State.arbitrate
          { s with
            observer := { s.observer with activity := .active, silenceTimer := some s.active.policy.silenceMs }
            report := s.report.hand (if s.observer.activity = .silent then [.driverBack] else [])
            dPort := { s.dPort with lengthError := s.dPort.lengthError + 1 } })))

/-- The checks at receipt find a valid frame exactly in its bytes: kind, destination, source, sequence, the payload
length, at most 96 payload bytes, and the computed check sequence, high byte first. The check sequence is that of a
register that starts at FFFFH and, for each bit of each byte, most significant first, is shifted left by one, 1021H
combined into it where the bit shifted out differs from the data bit (R164, R180). -/
def Obligations.CheckFrameReadsExactlyTheFrames : Prop :=
  (∀ bytes : List Byte, crc16 bytes =
    (bytes.flatMap fun b => [7, 6, 5, 4, 3, 2, 1, 0].map fun k => b.getLsbD k).foldl
      (fun (register : Half) bit =>
        if register.getLsbD 15 ≠ bit then (register <<< 1) ^^^ 0x1021 else register <<< 1) 0xFFFF) ∧
  (∀ f : Frame,
    let body := [f.kind, f.destination, f.source, f.sequence, BitVec.ofNat 8 f.payload.length] ++ f.payload
    let line := body ++ [BitVec.ofNat 8 (f.crc.toNat / 256), BitVec.ofNat 8 f.crc.toNat]
    f.body = body ∧ f.bytes = line ∧
      ∀ bytes : List Byte, checkFrame bytes = .valid f ↔ bytes = line ∧ f.payload.length ≤ 96 ∧ f.crc = crc16 body)

/-- A valid frame received on the C-port is counted, and then: for another station, it is placed at the back of the
DFQ, or dropped and counted when the DFQ is full; for the own address and no MGMT_REQUEST, it is counted as
misaddressed and dropped; a malformed MGMT_REQUEST is answered BAD_REQUEST and reaches no other block (R139, R141,
R165, R167, R168). -/
def Obligations.CPortReceiptForwardsDownstream : Prop :=
  ∀ (s : State) (bytes : List Byte) (f : Frame), s.cPort.up = true → checkFrame bytes = .valid f →
    (f.destination ≠ s.ownAddress → s.dfq.length < 8 → exec (.cPortReceipt bytes) s =
      .next (State.arbitrate
        { s with cPort := { s.cPort with received := s.cPort.received + 1 }, dfq := s.dfq ++ [f] })) ∧
    (f.destination ≠ s.ownAddress → 8 ≤ s.dfq.length → exec (.cPortReceipt bytes) s =
      .next (State.arbitrate
        { s with
          cPort :=
            { s.cPort with received := s.cPort.received + 1, ingressFull := s.cPort.ingressFull + 1 } })) ∧
    (f.destination = s.ownAddress → f.kind ≠ Frame.requestKind → exec (.cPortReceipt bytes) s =
      .next (State.arbitrate
        { s with
          cPort := { s.cPort with received := s.cPort.received + 1 }, misaddressed := s.misaddressed + 1 })) ∧
    (f.destination = s.ownAddress → f.kind = Frame.requestKind → decodeRequest f.payload = none →
      s.Deliverable f.source f.sequence → exec (.cPortReceipt bytes) s =
        .next (s.answered f.source f.sequence (f.payload.headD 0) .badRequest []))

/-- A valid frame received on the D-port that is no SAMPLE frame starts the silence timer, makes the driver ACTIVE
with DRIVER_BACK if it was SILENT, is counted and is forwarded upstream, and nothing else changes but the arbiters'
selections (R101, R166, R167, R170). -/
def Obligations.DPortReceiptForwardsUpstream : Prop :=
  ∀ (s : State) (bytes : List Byte) (f : Frame), s.dPort.up = true → checkFrame bytes = .valid f →
    f.kind ≠ Frame.sampleKind → ∃ t : State, exec (.dPortReceipt bytes) s = .next t.arbitrate ∧
      t.observer = { s.observer with activity := .active, silenceTimer := some s.active.policy.silenceMs } ∧
      t.report = s.report.hand (if s.observer.activity = .silent then [.driverBack] else []) ∧
      (s.ufq.length < 8 → t.ufq = s.ufq ++ [f] ∧
        t.dPort = { s.dPort with received := s.dPort.received + 1 }) ∧
      (8 ≤ s.ufq.length → t.ufq = s.ufq ∧
        t.dPort = { s.dPort with received := s.dPort.received + 1, ingressFull := s.dPort.ingressFull + 1 }) ∧
      t = { s with observer := t.observer, report := t.report, ufq := t.ufq, dPort := t.dPort }

/-- A malformed SAMPLE frame and a duplicate are counted and not observed: the reference, the supply state and every
channel are kept. As any valid D-port frame, they start the silence timer, end a silence with DRIVER_BACK, and are
forwarded, or dropped and counted at a full UFQ (R101, R105, R106, R166, R167). -/
def Obligations.UnobservedSamplesOnlyCount : Prop :=
  ∀ (s : State) (bytes : List Byte) (f : Frame), s.dPort.up = true → checkFrame bytes = .valid f →
    f.kind = Frame.sampleKind →
    let counted := fun monitor : Monitor =>
      exec (.dPortReceipt bytes) s = .next (State.arbitrate
        { s with
          observer := { s.observer with activity := .active, silenceTimer := some s.active.policy.silenceMs }
          report := s.report.hand (if s.observer.activity = .silent then [.driverBack] else [])
          monitor
          dPort :=
            { s.dPort with
              received := s.dPort.received + 1
              ingressFull := s.dPort.ingressFull + (if s.ufq.length < 8 then 0 else 1) }
          ufq := if s.ufq.length < 8 then s.ufq ++ [f] else s.ufq });
    (readSample f.payload = none →
      counted { s.monitor with malformedSample := s.monitor.malformedSample + 1 }) ∧
    (∀ m, readSample f.payload = some m → s.observer.reference = some m.index →
      counted { s.monitor with duplicateSample := s.monitor.duplicateSample + 1 })

/-- A SAMPLE payload is well formed exactly where its length is 6 + 4k, with k the channels named in its channel set:
it holds the index, the supply, the set, and for each named channel in ascending order a signed current and a drive
voltage, each most significant byte first (R105, R182). An accepted SAMPLE frame that orders no void reaches every
channel: the reference is its index, a LOW supply returns to OK with SUPPLY_OK where R109 says so, each context
becomes what the frame makes of it alone, and their records are handed in ascending channel order behind DRIVER_BACK
and SUPPLY_OK (R45, R101, R106, R108, R109, R167). What the frame makes of one context is spelled in
EpisodesCloseAndAreAccounted and OvercurrentTripsTheChannel. -/
def Obligations.AcceptedFrameHandlesEachChannel : Prop :=
  (∀ (payload : List Byte) (m : Sample), readSample payload = some m ↔
    ∃ (i₁ i₀ s₁ s₀ c₁ c₀ : Byte) (entries : List Byte), payload = i₁ :: i₀ :: s₁ :: s₀ :: c₁ :: c₀ :: entries ∧
      let named := (List.finRange 16).filter fun ch => (c₁.toNat * 256 + c₀.toNat).testBit ch.val
      let number := fun k : Nat => (entries.getD k 0).toNat * 256 + (entries.getD (k + 1) 0).toNat
      let signed := fun k : Nat => if number k < 32768 then (number k : Int) else number k - 65536
      entries.length = 4 * named.length ∧ m.index = BitVec.ofNat 16 (i₁.toNat * 256 + i₀.toNat) ∧
        m.supply = s₁.toNat * 256 + s₀.toNat ∧
        m.entries = named.zipIdx.map fun entry => (entry.1, ⟨signed (4 * entry.2), number (4 * entry.2 + 2)⟩)) ∧
  (∀ (payload : List Byte) (m : Sample), readSample payload = some m → ∀ (ch : ChannelId) (entry : SampleEntry),
    m.entry? ch = some entry ↔ (ch, entry) ∈ m.entries) ∧
  (∀ (s : State) (bytes : List Byte) (f : Frame) (m : Sample), s.dPort.up = true → checkFrame bytes = .valid f →
    f.kind = Frame.sampleKind → readSample f.payload = some m →
    (s.observer.reference = none ∨
      ∃ r, s.observer.reference = some r ∧ 1 ≤ (m.index - r).toNat ∧ (m.index - r).toNat ≤ 32767) →
    (s.observer.supply = .ok → s.active.policy.supplyLow = 0 ∨ s.active.policy.supplyLow ≤ m.supply) →
    let returns := s.observer.supply = .low ∧
      (s.active.policy.supplyLow = 0 ∨ s.active.policy.supplyOk ≤ m.supply)
    ∃ t : State, exec (.dPortReceipt bytes) s = .next t.arbitrate ∧
      t.observer =
        ⟨some m.index, if returns then .ok else s.observer.supply, .active, some s.active.policy.silenceMs⟩ ∧
      (∀ ch : ChannelId, t.channel ch = ((s.channel ch).handleFrame ch m.index (m.entry? ch)).1) ∧
      t.report =
        allChannels.foldl (fun q ch => q.hand ((s.channel ch).handleFrame ch m.index (m.entry? ch)).2)
          ((s.report.hand (if s.observer.activity = .silent then [.driverBack] else [])).hand
            (if returns then [.supplyOk m.supply] else [])) ∧
      t.ufq = (if s.ufq.length < 8 then s.ufq ++ [f] else s.ufq) ∧
      t.dPort =
        { s.dPort with
          received := s.dPort.received + 1
          ingressFull := s.dPort.ingressFull + (if s.ufq.length < 8 then 0 else 1) } ∧
      t = { s with
            observer := t.observer, channels := t.channels, report := t.report, ufq := t.ufq, dPort := t.dPort })

/-- The overcurrent check. In every accepted frame, a present entry at or above the snapshot's oc_level trips an
energized OPEN channel, with an episode or without: an injection is pending, the fail count rises, the channel is
LOCKED exactly when lock_after is reached and TRIPPED otherwise, no episode is left, the failed counter rises for an
episode that the frame has not voided and the trips counter otherwise, and FAULT_N is low. On a channel without an
episode, a trip hands TRIP with its fields and LOCKED behind it if it locks; an entry that fails a condition has no
effect (R38, R49, R70, R71, R72, R86 to R90). -/
def Obligations.OvercurrentTripsTheChannel : Prop :=
  (∀ (s : State) (bytes : List Byte) (f : Frame) (m : Sample) (ch : ChannelId) (sn : Snapshot) (entry : SampleEntry),
    s.dPort.up = true → checkFrame bytes = .valid f → f.kind = Frame.sampleKind → readSample f.payload = some m →
    s.observer.reference ≠ some m.index → (s.channel ch).energized = true → (s.channel ch).snapshot = some sn →
    (s.channel ch).disposition = .open_ → m.entry? ch = some entry → (sn.profile.ocLevel : Int) ≤ entry.current →
    let voids :=
      (∃ r, s.observer.reference = some r ∧ 32768 ≤ (m.index - r).toNat) ∨
      s.observer.supply = .ok ∧ s.active.policy.supplyLow ≠ 0 ∧ m.supply < s.active.policy.supplyLow
    let inEpisode := (s.channel ch).episode ≠ none ∧ ¬voids
    let failCount := min 15 ((s.channel ch).failCount + 1)
    ∃ t : State, exec (.dPortReceipt bytes) s = .next t.arbitrate ∧ (t.channel ch).pendingInjection = true ∧
      (t.channel ch).energized = true ∧ (t.channel ch).snapshot = some sn ∧ (t.channel ch).episode = none ∧
      (t.channel ch).failCount = failCount ∧
      (t.channel ch).disposition =
        (if sn.profile.lockAfter ≠ 0 ∧ sn.profile.lockAfter ≤ failCount then .locked else .tripped) ∧
      (inEpisode → (t.channel ch).failed = (s.channel ch).failed + 1 ∧
        (t.channel ch).trips = (s.channel ch).trips) ∧
      (¬inEpisode → (t.channel ch).failed = (s.channel ch).failed ∧
        (t.channel ch).trips = (s.channel ch).trips + 1) ∧
      (t.channel ch).passed = (s.channel ch).passed ∧ t.faultLow = true) ∧
  (∀ (c : Channel) (ch : ChannelId) (x : Half) (entry : Option SampleEntry), c.episode = none →
    (entry = none ∨ c.energized = false ∨ c.snapshot = none ∨ c.disposition ≠ .open_ →
      c.handleFrame ch x entry = (c, [])) ∧
    (∀ sn present, c.snapshot = some sn → entry = some present →
      (present.current < (sn.profile.ocLevel : Int) → c.handleFrame ch x entry = (c, [])) ∧
      (c.energized = true → c.disposition = .open_ → (sn.profile.ocLevel : Int) ≤ present.current →
        let failCount := min 15 (c.failCount + 1)
        let locks := sn.profile.lockAfter ≠ 0 ∧ sn.profile.lockAfter ≤ failCount
        c.handleFrame ch x entry =
          ({ c with
              disposition := if locks then .locked else .tripped
              pendingInjection := true
              failCount
              trips := c.trips + 1 },
            .trip ⟨ch, x, present.current, sn.index, sn.generation, failCount⟩ ::
              if locks then [.locked ch failCount sn.index sn.generation] else []))))

/-- The closure of an episode. The frame's steps (DeadlinesCloseInOrder) leave it open, close it with the outcome they
name, or trip the channel, which closes it OVERCURRENT; a void, an admitted ENERGIZE and a RELEASE close it from
outside. PASS raises the passed counter and sets the fail count to 0; a fail outcome raises the failed counter and the
fail count, at most to 15, and locks a channel that is not LOCKED at a lock_after other than 0 that is reached, the
injection then pending where the channel is energized; any other raises the neutral counter alone. The VERDICT carries
the snapshot's slot and generation, the episode's values as they stand, and the optional fields that were reached;
LOCKED stands behind it (R40, R46, R62, R66 to R71, R75, R76, R88). -/
def Obligations.EpisodesCloseAndAreAccounted : Prop :=
  ∀ (c : Channel) (ch : ChannelId) (sn : Snapshot) (e : Episode), c.snapshot = some sn → c.episode = some e →
    let closed := fun (c : Channel) (e : Episode) (outcome : EpisodeOutcome) (resistance : Option Nat) =>
      let fails := outcome ∈
        [EpisodeOutcome.noMotion, .earlyMotion, .travelShort, .travelLong, .hitMissed, .openLoad, .overcurrent, .resLow,
          .resHigh]
      let neutral := outcome ∈
        [EpisodeOutcome.releasedEarly, .superseded, .voidGap, .voidSupply, .voidSilent]
      let failCount := if outcome = .pass then 0 else if fails then min 15 (c.failCount + 1) else c.failCount
      let locks := fails ∧ sn.profile.lockAfter ≠ 0 ∧ sn.profile.lockAfter ≤ failCount ∧ c.disposition ≠ .locked
      let valley : Option ValleyGroup :=
        match e.peak, e.valley with
        | some peak, some valley =>
          some ⟨valley, (valley.index - e.cmdIndex).toNat, (valley.index - peak.index).toNat⟩
        | _, _ => none
      (({ c with
          disposition := if locks then .locked else c.disposition
          pendingInjection := c.pendingInjection || (decide locks && c.energized)
          episode := none
          failCount
          passed := c.passed + (if outcome = .pass then 1 else 0)
          failed := c.failed + (if fails then 1 else 0)
          neutral := c.neutral + (if neutral then 1 else 0) } : Channel),
        Record.verdict
            ⟨ch, outcome, sn.index, sn.generation, e.cmdIndex, e.elapsed, e.gap, failCount, e.peak, valley, e.hit,
              resistance⟩ ::
          if locks then [.locked ch failCount sn.index sn.generation] else []);
    (∀ x entry e', e.handle sn.profile x entry = .stays e' →
      c.handleFrame ch x entry = ({ c with episode := some e' }, [])) ∧
    (∀ x entry e' outcome r, e.handle sn.profile x entry = .closes e' outcome r →
      c.handleFrame ch x entry = closed c e' outcome r) ∧
    (∀ x entry e', e.handle sn.profile x entry = .trips e' →
      c.handleFrame ch x entry =
        closed { c with disposition := .tripped, pendingInjection := true } e' .overcurrent none) ∧
    (∀ outcome, c.closeOutside ch outcome = closed c e outcome none)

/-- A frame that takes the supply LOW, and a frame that resyncs, leave no episode open: every open episode closes
VOID_SUPPLY or VOID_GAP and is counted as neutral, the VERDICT records stand in ascending channel order behind
DRIVER_BACK, SUPPLY_LOW or SUPPLY_OK behind them, and what the overcurrent check makes of the frame behind that. The
energized flag and the snapshot of every channel are kept, and the disposition, the fail count and the injection flag
of a channel that carries no entry. A supply that falls does so against an absent reference, too (R79, R101, R106 to
R110, R167). -/
def Obligations.VoidingFramesCloseEveryEpisode : Prop :=
  ∀ (s : State) (bytes : List Byte) (f : Frame) (m : Sample), s.ChannelsSound → s.dPort.up = true →
    checkFrame bytes = .valid f → f.kind = Frame.sampleKind → readSample f.payload = some m →
    s.observer.reference ≠ some m.index →
    let resyncs := ∃ r ∈ s.observer.reference, 32768 ≤ (m.index - r).toNat
    let falls := s.observer.supply = .ok ∧ s.active.policy.supplyLow ≠ 0 ∧ m.supply < s.active.policy.supplyLow
    let returns := s.observer.supply = .low ∧
      (s.active.policy.supplyLow = 0 ∨ s.active.policy.supplyOk ≤ m.supply)
    let outcome : EpisodeOutcome := if resyncs then .voidGap else .voidSupply
    let voided := fun ch : ChannelId =>
      { s.channel ch with
        episode := none
        neutral := (s.channel ch).neutral + (if (s.channel ch).episode.isSome then 1 else 0) }
    resyncs ∨ falls →
    ∃ t : State, exec (.dPortReceipt bytes) s = .next t.arbitrate ∧
      t.observer =
        ⟨some m.index, if falls then .low else if returns then .ok else s.observer.supply, .active,
          some s.active.policy.silenceMs⟩ ∧
      t.monitor = { s.monitor with resync := s.monitor.resync + (if resyncs then 1 else 0) } ∧
      (∀ ch : ChannelId, t.channel ch = ((voided ch).handleFrame ch m.index (m.entry? ch)).1) ∧
      t.report =
        allChannels.foldl (fun q ch => q.hand ((voided ch).handleFrame ch m.index (m.entry? ch)).2)
          ((allChannels.foldl (fun q ch => q.hand ((s.channel ch).closeOutside ch outcome).2)
            (s.report.hand (if s.observer.activity = .silent then [.driverBack] else []))).hand
              (if falls then [.supplyLow m.supply] else if returns then [.supplyOk m.supply] else [])) ∧
      (∀ ch : ChannelId, (t.channel ch).episode = none ∧ (t.channel ch).energized = (s.channel ch).energized ∧
        (t.channel ch).snapshot = (s.channel ch).snapshot) ∧
      (∀ ch : ChannelId, m.entry? ch = none → (t.channel ch).disposition = (s.channel ch).disposition ∧
        (t.channel ch).failCount = (s.channel ch).failCount ∧
        (t.channel ch).pendingInjection = (s.channel ch).pendingInjection) ∧
      t.ufq = (if s.ufq.length < 8 then s.ufq ++ [f] else s.ufq) ∧
      t.dPort =
        { s.dPort with
          received := s.dPort.received + 1
          ingressFull := s.dPort.ingressFull + (if s.ufq.length < 8 then 0 else 1) } ∧
      t = { s with
            observer := t.observer, channels := t.channels, report := t.report, ufq := t.ufq, dPort := t.dPort
            monitor := t.monitor }

/-! Departures. -/

/-- A well-formed judged frame that has been selected acts on each channel it names and on no other: an ENERGIZE on an
OPEN channel sets energized and takes the snapshot of the ACTIVE map, an ENERGIZE on a TRIPPED or LOCKED channel is
rewritten and releases it, a RELEASE releases it and returns TRIPPED to OPEN, any other action leaves it. Each cancels
a pending injection that it releases, although the injection became pending after the frame was selected (R33, R34,
R96). An episode that is open closes SUPERSEDED or RELEASED_EARLY, and the records are handed in entry order: its
VERDICT, or BLOCKED for a rewritten ENERGIZE. An episode opens where the driver is ACTIVE, the supply OK and a
reference present. The frame departs as received, or, with an entry rewritten, with its header, the entries and a check
sequence computed anew (R17, R26, R28 to R32, R41, R43). That the frame can be selected before the departure is the
model's reading, log entry 3. -/
def Obligations.JudgedDepartureActsEntryByEntry : Prop :=
  ∀ (s : State) (f : Frame) (rest : List Frame) (entries : List CommandEntry), s.dStanding = some .queueHead →
    s.dfq = f :: rest → s.judges f = true → readCommand f.payload = some entries →
    let departing := entries.map fun e =>
      if e.action = 1 ∧ (s.channel e.channel).disposition ≠ .open_ then { e with action := 2, argument := 0 } else e
    let payload := BitVec.ofNat 8 departing.length ::
      departing.flatMap fun e => [BitVec.ofNat 8 (e.channel.val * 16 + e.action), e.argument]
    let snapshot := fun ch : ChannelId =>
      match s.active.map[ch.val] with
      | some slot =>
        match s.active.slots[slot.val] with
        | some profile => some (Snapshot.mk profile slot s.generation)
        | none => none
      | none => none
    let opening := if s.observer.activity = .active ∧ s.observer.supply = .ok then s.observer.reference else none
    ∃ (t : State) (g : Frame), exec .judgedDeparture s = .next t.arbitrate ∧ t.dfq = rest ∧
      t.dPort = { s.dPort with sending := some g } ∧
      (departing = entries → g = f) ∧
      (departing ≠ entries → frameIntact g ∧ g = { f with payload, crc := g.crc }) ∧
      (∀ e ∈ entries, e.action = 1 → (s.channel e.channel).disposition = .open_ →
        (t.channel e.channel).energized = true ∧ (t.channel e.channel).disposition = .open_ ∧
        (t.channel e.channel).snapshot = snapshot e.channel ∧
        (t.channel e.channel).pendingInjection = (s.channel e.channel).pendingInjection ∧
        (t.channel e.channel).failCount = (s.channel e.channel).failCount ∧
        (t.channel e.channel).episode =
          (match snapshot e.channel, opening with
           | some sn, some reference =>
             some ⟨if sn.profile.motion.isSome then .ramp else .climb, reference, 0, 0, 0, none, none, none, none,
               false, none, 0, 0, 0, 0⟩
           | _, _ => none) ∧
        (t.channel e.channel).opened =
          (s.channel e.channel).opened + (if (t.channel e.channel).episode.isSome then 1 else 0)) ∧
      (∀ e ∈ entries, e.action = 1 → (s.channel e.channel).disposition ≠ .open_ →
        t.channel e.channel =
          { s.channel e.channel with energized := false, pendingInjection := false, snapshot := none }) ∧
      (∀ e ∈ entries, e.action = 2 →
        (t.channel e.channel).energized = false ∧ (t.channel e.channel).pendingInjection = false ∧
        (t.channel e.channel).snapshot = none ∧ (t.channel e.channel).episode = none ∧
        (t.channel e.channel).failCount = (s.channel e.channel).failCount ∧
        (t.channel e.channel).opened = (s.channel e.channel).opened ∧
        (t.channel e.channel).disposition =
          (if (s.channel e.channel).disposition = .tripped then .open_ else (s.channel e.channel).disposition)) ∧
      (∀ e ∈ entries, e.action = 1 ∧ (s.channel e.channel).disposition = .open_ ∨ e.action = 2 →
        (t.channel e.channel).passed = (s.channel e.channel).passed ∧
        (t.channel e.channel).failed = (s.channel e.channel).failed ∧
        (t.channel e.channel).trips = (s.channel e.channel).trips ∧
        ((s.channel e.channel).Sound → (t.channel e.channel).neutral =
          (s.channel e.channel).neutral + (if (s.channel e.channel).episode.isSome then 1 else 0))) ∧
      (∀ e ∈ entries, e.action ≠ 1 → e.action ≠ 2 → t.channel e.channel = s.channel e.channel) ∧
      (∀ ch : ChannelId, (∀ e ∈ entries, e.channel ≠ ch) → t.channel ch = s.channel ch) ∧
      t.report =
        entries.foldl (fun q e => q.hand
          (if e.action = 1 then
            if (s.channel e.channel).disposition = .open_ then
              ((s.channel e.channel).closeOutside e.channel .superseded).2
            else [.blocked e.channel 1]
          else if e.action = 2 then ((s.channel e.channel).closeOutside e.channel .releasedEarly).2
          else [])) s.report ∧
      t = { s with
            dfq := t.dfq, dPort := t.dPort, channels := t.channels, report := t.report, monitor := t.monitor } ∧
      t.monitor =
        { s.monitor with
          blockedEntry := s.monitor.blockedEntry + BitVec.ofNat 32
            (entries.countP fun e =>
              decide (e.action = 1) && decide ((s.channel e.channel).disposition ≠ .open_)) }

/-- A COMMAND payload is well formed exactly where it is a count of 1 to 16 and that many entries of two bytes, the
channel in the high four bits of the first, the action in the low four, then the argument, no channel twice (R27,
R181). A malformed judged frame at the head of the DFQ is dropped with a MALFORMED record and counted, and the arbiter
selects again within the same event: an injection that is offered departs; otherwise further malformed heads are
dropped in the same way, and the first frame behind them departs, judged or as received, or nothing does (R27, R168,
R169). -/
def Obligations.MalformedHeadsAreDroppedInOneEvent : Prop :=
  (∀ (payload : List Byte) (entries : List CommandEntry), readCommand payload = some entries ↔
    1 ≤ entries.length ∧ entries.length ≤ 16 ∧ (entries.map fun e => e.channel).Nodup ∧
      (∀ e ∈ entries, e.action < 16) ∧
      payload = BitVec.ofNat 8 entries.length ::
        entries.flatMap fun e => [BitVec.ofNat 8 (e.channel.val * 16 + e.action), e.argument]) ∧
  (∀ (s : State) (bad rest : List Frame), s.dStanding = some .queueHead → bad ≠ [] → s.dfq = bad ++ rest →
    (∀ b ∈ bad, s.judges b = true ∧ readCommand b.payload = none) →
    let dropped := fun (n : Nat) (waiting : List Frame) =>
      { s with
        dfq := waiting
        dSelected := none
        report := (List.replicate n (Record.malformed 1)).foldl (fun q r => q.hand [r]) s.report
        monitor :=
          { s.monitor with malformedCommand := s.monitor.malformedCommand + BitVec.ofNat 32 n } };
    (s.injectionOffered = true →
      exec .judgedDeparture s = exec .injectedDeparture (dropped 1 (bad.tail ++ rest))) ∧
    (s.injectionOffered = false →
      (rest = [] → exec .judgedDeparture s = .next (State.arbitrate (dropped bad.length []))) ∧
      (∀ f behind, rest = f :: behind → s.judges f = false →
        exec .judgedDeparture s = exec .dPortDeparture (dropped bad.length rest)) ∧
      (∀ f behind entries, rest = f :: behind → s.judges f = true → readCommand f.payload = some entries →
        exec .judgedDeparture s = exec .judgedDeparture (dropped bad.length rest))))

/-- An injection that has been selected departs: it sends one well-formed COMMAND frame to the driver with a RELEASE
for exactly the pending channels, clears their flags and snapshots and keeps their dispositions, and touches no other
channel (R91, R92, R93, R94). -/
def Obligations.InjectedDepartureReleasesThePending : Prop :=
  ∀ s : State, s.dStanding = some .injection →
    ∃ (t : State) (f : Frame), exec .injectedDeparture s = .next t.arbitrate ∧
      t.dPort = { s.dPort with sending := some f } ∧ frameIntact f ∧ f.kind = Frame.commandKind ∧
      f.destination = s.active.policy.driverAddress ∧ f.source = s.ownAddress ∧ f.sequence = s.injectionCounter ∧
      readCommand f.payload = some ((allChannels.filter fun c => (s.channel c).pendingInjection).map fun c =>
        { channel := c, action := 2, argument := 0 }) ∧
      t.injectionCounter = s.injectionCounter + 1 ∧
      t.monitor = { s.monitor with injectedFrame := s.monitor.injectedFrame + 1 } ∧
      (∀ c : ChannelId, t.channel c =
        if (s.channel c).pendingInjection = true then
          { s.channel c with energized := false, pendingInjection := false, snapshot := none }
        else s.channel c) ∧
      t = { s with
            dPort := t.dPort, injectionCounter := t.injectionCounter, monitor := t.monitor, channels := t.channels }

/-- The report offer, once selected, departs in a REPORT frame to the sink in force: an unsent record takes the next
sequence number and joins the window, starting the timer if the window was empty; a record of the window goes again
with its number; the cursor, the marker and the counter advance (R123, R124, R125, R126, R170). The frame is spelled in
FramesOfTheL16CarryTheirContents. -/
def Obligations.ReportDepartureNumbersAndAdvances : Prop :=
  ∀ s : State, s.cStanding = some .report → (s.report.lossCount = 0 ∨ s.report.total = 48) →
    (∀ r rest, s.report.cursor = s.report.window.length → s.report.unsent = r :: rest →
      exec .reportDeparture s = .next (State.arbitrate
        { s with
          report :=
            { s.report with
              window := s.report.window ++ [⟨s.report.nextSequence, r⟩]
              unsent := rest
              cursor := s.report.cursor + 1
              nextSequence := s.report.nextSequence + 1
              retransmitTimer :=
                if s.report.window = [] then some s.active.policy.retransmitMs else s.report.retransmitTimer }
          marker := .report
          monitor := { s.monitor with reportFrame := s.monitor.reportFrame + 1 }
          cPort :=
            { s.cPort with
              sending := some
                (reportFrame s.ownAddress s.active.policy.sinkAddress s.report.nextSequence r) } })) ∧
    (∀ number r, s.report.window[s.report.cursor]? = some ⟨number, r⟩ →
      exec .reportDeparture s = .next (State.arbitrate
        { s with
          report := { s.report with cursor := s.report.cursor + 1 }
          marker := .report
          monitor := { s.monitor with reportFrame := s.monitor.reportFrame + 1 }
          cPort :=
            { s.cPort with
              sending := some (reportFrame s.ownAddress s.active.policy.sinkAddress number r) } }))

/-- Frames that depart as they stand: a DFQ head that is selected and not judged, and the UFQ head, byte for byte as
received, and the response queue head as built. Nothing else changes but the marker, at the UFQ head, and what the
arbiters do (R25, R145, R167, R169, R170, R171). -/
def Obligations.FramesDepartAsTheyStand : Prop :=
  (∀ (s : State) (f : Frame) (rest : List Frame), s.dStanding = some .queueHead → s.dfq = f :: rest →
    (f.kind ≠ Frame.commandKind ∨ f.destination ≠ s.active.policy.driverAddress) →
    exec .dPortDeparture s =
      .next (State.arbitrate { s with dfq := rest, dPort := { s.dPort with sending := some f } })) ∧
  (∀ (s : State) (f : Frame) (rest : List Frame), s.cStanding = some .response → s.responses = f :: rest →
    exec .responseDeparture s =
      .next (State.arbitrate { s with responses := rest, cPort := { s.cPort with sending := some f } })) ∧
  (∀ (s : State) (f : Frame) (rest : List Frame), s.cStanding = some .forward → s.ufq = f :: rest →
    exec .ufqDeparture s =
      .next (State.arbitrate
        { s with ufq := rest, marker := .forward, cPort := { s.cPort with sending := some f } }))

/-- The frames that the L16 builds upstream. A REPORT frame of kind 06H goes from the own address to the sink, its
sequence byte the low byte of the record's number, and carries the number, the record kind and the contents of 10.6, in
a VERDICT the optional fields that are present, packed behind their presence bits. A MGMT_RESPONSE frame of kind 05H
goes from the own address to the request's source under its tag, and carries the request kind, the status code and the
results. The check sequence of both is the computed one (R124, R139, R180, R185, 10.5). -/
def Obligations.FramesOfTheL16CarryTheirContents : Prop :=
  ∀ own other : Byte,
    (∀ (number : Half) (r : Record),
      let f := reportFrame own other number r
      let byte := fun n : Nat => BitVec.ofNat 8 n
      let signed := fun i : Int => bytes2 (BitVec.ofInt 16 i).toNat
      let bit := fun (flag : Bool) (weight : Nat) => if flag then weight else 0
      frameIntact f ∧ f.kind = 0x06 ∧ f.destination = other ∧ f.source = own ∧
        f.sequence.toNat = number.toNat % 256 ∧
        f.payload = bytes2 number.toNat ++
          match r with
          | .verdict v =>
            0x01 :: byte v.channel.val ::
              (match v.outcome with
              | .pass => 0x00
              | .noMotion => 0x10
              | .earlyMotion => 0x11
              | .travelShort => 0x12
              | .travelLong => 0x13
              | .hitMissed => 0x14
              | .openLoad => 0x15
              | .overcurrent => 0x16
              | .resLow => 0x17
              | .resHigh => 0x18
              | .releasedEarly => 0x20
              | .superseded => 0x21
              | .voidGap => 0x22
              | .voidSupply => 0x23
              | .voidSilent => 0x24) ::
              byte v.profileIndex.val :: bytes2 v.generation.toNat ++ bytes2 v.cmdIndex.toNat ++ bytes2 v.elapsed ++
              bytes2 v.gap ++ [byte v.failCount] ++
              [byte (bit v.peak.isSome 1 + bit v.valley.isSome 2 + bit v.hit.isSome 4 + bit v.resistance.isSome 8)] ++
              (v.peak.elim [] fun mark => bytes2 mark.index.toNat ++ signed mark.current) ++
              (v.valley.elim [] fun g => bytes2 g.mark.index.toNat ++ signed g.mark.current ++ bytes2 g.reaction ++
                bytes2 g.travel) ++
              (v.hit.elim [] fun index => bytes2 index.toNat) ++ v.resistance.elim [] bytes4
          | .trip t =>
            0x02 :: byte t.channel.val :: bytes2 t.sampleIndex.toNat ++ signed t.current ++
              [byte t.profileIndex.val] ++ bytes2 t.generation.toNat ++ [byte t.failCount]
          | .locked ch failCount index generation =>
            [0x03, byte ch.val, byte failCount, byte index.val] ++ bytes2 generation.toNat
          | .unlocked ch => [0x04, byte ch.val]
          | .blocked ch count => [0x05, byte ch.val, byte count]
          | .malformed count => [0x06, byte count]
          | .supplyLow supply => 0x07 :: bytes2 supply
          | .supplyOk supply => 0x08 :: bytes2 supply
          | .driverSilent => [0x09]
          | .driverBack => [0x0A]
          | .generation value => 0x0B :: bytes2 value.toNat
          | .sessionLapsed holder => [0x0C, holder]
          | .restarted generation => 0x0D :: bytes2 generation.toNat
          | .loss count => 0x0E :: bytes2 count) ∧
    (∀ (tag kind : Byte) (status : Status) (results : List Byte),
      let f := responseFrame own other tag kind status results
      frameIntact f ∧ f.kind = 0x05 ∧ f.destination = other ∧ f.source = own ∧ f.sequence = tag ∧
        f.payload = kind ::
          (match status with
          | .ok => 0x00
          | .badRequest => 0x01
          | .badIndex => 0x02
          | .badValue => 0x03
          | .noSession => 0x04
          | .held => 0x05
          | .inconsistent => 0x06
          | .notSink => 0x07
          | .stale => 0x08) :: results)

/-! Expiries. -/

/-- Silence expiry, where the timer's ticks have passed: the driver SILENT, every open episode closed VOID_SILENT in
channel order, the reference absent, DRIVER_SILENT behind the verdicts; the supply state, dispositions, flags,
snapshots and fail counts are kept. Where the timer is stopped or has been started again, the expiry does not happen
(R79, R102, R103, R104). That the command then leaves the state as it is is the model's choice, log entries 4 and 6.
-/
def Obligations.SilenceExpiryVoidsAndReports : Prop :=
  ∀ s : State,
    (s.observer.silenceTimer ≠ some 0 → exec .silenceExpiry s = .next s) ∧
    (s.ChannelsSound → s.observer.silenceTimer = some 0 →
      ∃ t : State, exec .silenceExpiry s = .next t.arbitrate ∧
        t.observer = { s.observer with activity := .silent, reference := none, silenceTimer := none } ∧
        (∀ ch : ChannelId, t.channel ch =
          { s.channel ch with
            episode := none
            neutral := (s.channel ch).neutral + (if (s.channel ch).episode.isSome then 1 else 0) }) ∧
        t.report =
          (allChannels.foldl (fun q ch => q.hand ((s.channel ch).closeOutside ch .voidSilent).2) s.report).hand
            [.driverSilent] ∧
        t = { s with observer := t.observer, channels := t.channels, report := t.report })

/-- Retransmit expiry, where the timer's ticks have passed: below five retries the cursor goes back and the timer
starts again; at the fifth retry the sender stalls, the timer stops and FAULT_N is low. Where the timer is stopped or
has been started again, the expiry does not happen (R38, R126, R127, R128, R129). That the command then leaves the
state as it is is the model's choice, log entries 4 and 6. -/
def Obligations.RetransmitExpiryGoesBackOrStalls : Prop :=
  ∀ s : State,
    (s.report.retransmitTimer ≠ some 0 → exec .retransmitExpiry s = .next s) ∧
    (s.report.retransmitTimer = some 0 → (s.report.lossCount = 0 ∨ s.report.total = 48) →
      (s.report.retryCount < 5 → exec .retransmitExpiry s = .next (State.arbitrate
        { s with
          report :=
            { s.report with
              retryCount := s.report.retryCount + 1
              cursor := 0
              retransmitTimer := some s.active.policy.retransmitMs } })) ∧
      (s.report.retryCount = 5 → ∃ t : State, exec .retransmitExpiry s = .next (State.arbitrate t) ∧
        t = { s with report := { s.report with sender := .stalled, retransmitTimer := none } } ∧ t.faultLow = true))

/-- Lease expiry, where the lease's ticks have passed: the session ends, SHADOW goes with it, SESSION_LAPSED names the
former holder, and nothing else changes but the arbiters' selections. Where no session is held or the lease has been
started again, the expiry does not happen (R11, R148, R149, R150). That the command then leaves the state as it is is
the model's choice, log entries 4 and 6. -/
def Obligations.LeaseExpiryEndsTheSession : Prop :=
  ∀ s : State,
    ((∀ session, s.session = some session → session.lease ≠ 0) → exec .leaseExpiry s = .next s) ∧
    (∀ session, s.session = some session → session.lease = 0 →
      exec .leaseExpiry s =
        .next (State.arbitrate
          { s with session := none, report := s.report.hand [.sessionLapsed session.holder] }))

/-! Management requests: reads. -/

/-- IDENTIFY returns the part and revision codes, the own address, the generation, the holder and the sender state.
READ_CHANNEL returns the context of a channel in 0 to 15, the 43 bytes of 10.5, and BAD_INDEX otherwise. Neither
changes anything else (R64, R152, R153, R184, 10.5). -/
def Obligations.IdentifyAndReadChannelAnswer : Prop :=
  ∀ (s : State) (source tag : Byte), s.Deliverable source tag →
    exec (.identify source tag) s = .next (s.answered source tag 0x01 .ok
      ([0x4C, 0x16, 0x01, s.ownAddress] ++ bytes2 s.generation.toNat ++
        (match s.session with
         | some session => ([0x01, session.holder] : List Byte)
         | none => [0x00, 0x00]) ++
        (match s.report.sender with
         | .noSink => ([0x00] : List Byte)
         | .ready => [0x01]
         | .stalled => [0x02]))) ∧
    ∀ channel : Byte,
    (∀ ch : ChannelId, channel.toNat = ch.val →
      let c := s.channel ch
      let bit := fun (flag : Bool) (weight : Nat) => if flag then weight else 0
      let context : List Byte :=
        [BitVec.ofNat 8 ch.val,
          match c.disposition with
          | .open_ => 0x00
          | .tripped => 0x01
          | .locked => 0x02,
          BitVec.ofNat 8 (bit c.energized 1 + bit c.pendingInjection 2 + bit c.snapshot.isSome 4 +
            bit c.episode.isSome 8)] ++
        (match c.snapshot with
        | some sn => BitVec.ofNat 8 sn.index.val :: bytes2 sn.generation.toNat
        | none => [0x00, 0x00, 0x00]) ++
        [BitVec.ofNat 8 c.failCount] ++ bytes4 c.opened.toNat ++ bytes4 c.passed.toNat ++ bytes4 c.failed.toNat ++
        bytes4 c.neutral.toNat ++ bytes4 c.trips.toNat ++
        (match c.episode with
        | some e =>
          [match e.phase with
            | .ramp => 0x01
            | .dip => 0x02
            | .climb => 0x03
            | .settle => 0x04
            | .measure => 0x05] ++
          bytes2 e.cmdIndex.toNat ++ bytes2 e.elapsed ++ bytes2 e.seen ++ bytes2 e.gap ++
          [BitVec.ofNat 8 (bit e.peak.isSome 1 + bit e.valley.isSome 2 + bit e.hit.isSome 4)] ++
          bytes2 ((e.peak.map fun mark => mark.index.toNat).getD 0) ++
          bytes2 ((e.valley.map fun mark => mark.index.toNat).getD 0) ++
          bytes2 ((e.hit.map fun index => index.toNat).getD 0)
        | none => List.replicate 16 0x00)
      context.length = 43 ∧
        exec (.readChannel source tag channel) s = .next (s.answered source tag 0x02 .ok context)) ∧
    (16 ≤ channel.toNat →
      exec (.readChannel source tag channel) s = .next (s.answered source tag 0x02 .badIndex []))

/-- The three table reads return the content of the bank they name, ACTIVE to any source and SHADOW to the holder, and
change nothing in the store (R12, R154, 10.4, 10.5). -/
def Obligations.TableReadsReturnTheBank : Prop :=
  ∀ (s : State) (source tag : Byte) (bank : BankName) (b : Bank), s.Deliverable source tag →
    (bank = .active ∧ b = s.active ∨ bank = .shadow ∧ ∃ session, s.Holds source session ∧ b = session.shadow) →
    (∀ (slot : Byte) (i : SlotIndex), slot.toNat = i.val →
      exec (.readProfile source tag bank slot) s =
        .next (s.answered source tag 0x03 .ok
          (bank.code :: slot ::
            (match b.slots[i.val] with
             | none => [0x00]
             | some p => (0x01 : Byte) :: flagByte p.motion.isSome :: flagByte p.measure.isSome ::
                 (bytes2 p.openLevel ++ [BitVec.ofNat 8 p.openDeadline] ++ bytes2 p.hitLevel ++
                 bytes2 p.hitDeadline ++ bytes2 p.ocLevel ++
                 [BitVec.ofNat 8 p.settle, BitVec.ofNat 8 p.gapLimit, BitVec.ofNat 8 p.lockAfter] ++
                 (p.motion.elim [] fun m => bytes2 m.peakDrop ++ bytes2 m.valleyRise ++ bytes2 m.reactionMin ++
                   bytes2 m.reactionMax ++ bytes2 m.travelMin ++ bytes2 m.travelMax) ++
                 p.measure.elim [] fun g => BitVec.ofNat 8 g.window :: bytes4 g.rMin ++ bytes4 g.rMax))))) ∧
    (∀ slot : Byte, 32 ≤ slot.toNat →
      exec (.readProfile source tag bank slot) s = .next (s.answered source tag 0x03 .badIndex [])) ∧
    exec (.readMap source tag bank) s =
      .next (s.answered source tag 0x04 .ok (bank.code :: b.map.toList.map fun entry =>
        match entry with
        | some slot => BitVec.ofNat 8 slot.val
        | none => 0xFF)) ∧
    exec (.readPolicy source tag bank) s =
      .next (s.answered source tag 0x05 .ok
        (bank.code :: b.policy.driverAddress :: b.policy.sinkAddress :: bytes2 b.policy.retransmitMs ++
          [BitVec.ofNat 8 b.policy.silenceMs] ++ bytes2 b.policy.supplyLow ++ bytes2 b.policy.supplyOk))

/-- READ_COUNTERS returns the values of its group in the order of 10.5, as they stand with this request counted, and a
clearing read leaves every counter of the group, and no other, at 0. The response becomes the source's cache entry, in
front, and the cache keeps four (R115, R138, R143, R144, R158, R159, R177, R184, 10.5). -/
def Obligations.ReadCountersAnswersAndClears : Prop :=
  ∀ (s : State) (source tag : Byte) (clear : Bool), s.Deliverable source tag →
    let flag : Byte := if clear then 0x01 else 0x00
    let up := fun p : Port => if p.up then (0x01 : Byte) else 0x00
    let counters := fun values : List Count => values.flatMap fun c => bytes4 c.toNat
    let c := { s.cPort with received := s.cPort.received + 1 }
    let d := s.dPort
    let m := { s.monitor with requestExecuted := s.monitor.requestExecuted + 1 }
    let port : List Byte :=
      [up s.cPort, up s.dPort, BitVec.ofNat 8 s.dfq.length, BitVec.ofNat 8 s.ufq.length] ++
        counters
          [c.received, c.crcError, c.lengthError, s.misaddressed, c.ingressFull, c.egressFlushed, c.transmitted,
            c.abandoned, c.linkDown, d.received, d.crcError, d.lengthError, d.ingressFull, d.egressFlushed,
            d.transmitted, d.abandoned, d.linkDown]
    let monitor : List Byte :=
      counters
          [m.blockedEntry, m.malformedCommand, m.injectedFrame, m.malformedSample, m.duplicateSample, m.resync,
            m.reportFrame, m.staleAck, m.requestExecuted, m.requestDropped, m.replay, m.replayDropped,
            m.responseDiscarded] ++
        [BitVec.ofNat 8 (s.report.window.length + s.report.unsent.length),
          BitVec.ofNat 8 s.report.window.length] ++
        bytes2 s.report.nextSequence.toNat ++ bytes2 s.report.lossCount ++ [BitVec.ofNat 8 s.report.retryCount] ++
        (match s.observer.reference with
        | some index => 0x01 :: bytes2 index.toNat
        | none => [0x00, 0x00, 0x00]) ++
        (match s.observer.supply with
        | .ok => [0x00]
        | .low => [0x01]) ++
        (match s.observer.activity with
        | .silent => [0x00]
        | .active => [0x01])
    let portResponse := responseFrame s.ownAddress source tag 0x06 .ok (0x00 :: flag :: port)
    let monitorResponse := responseFrame s.ownAddress source tag 0x06 .ok (0x01 :: flag :: monitor)
    let cache := fun response : Frame =>
      (⟨source, tag, response⟩ :: s.cache.filter fun e => decide (e.source ≠ source)).take 4;
    portResponse.payload.length = 76 ∧ monitorResponse.payload.length = 68 ∧
    exec (.readCounters source tag .port clear) s = .next (State.arbitrate
      { s with
        cPort := if clear then ⟨s.cPort.up, s.cPort.sending, 0, 0, 0, 0, 0, 0, 0, 0⟩ else c
        dPort := if clear then ⟨s.dPort.up, s.dPort.sending, 0, 0, 0, 0, 0, 0, 0, 0⟩ else s.dPort
        misaddressed := if clear then 0 else s.misaddressed
        monitor := m
        session := renewed s.session source
        cache := cache portResponse
        responses := s.responses ++ [portResponse] }) ∧
    exec (.readCounters source tag .monitor clear) s = .next (State.arbitrate
      { s with
        cPort := c
        monitor := if clear then ⟨0, 0, 0, 0, 0, 0, 0, 0, 0, 0, 0, 0, 0⟩ else m
        session := renewed s.session source
        cache := cache monitorResponse
        responses := s.responses ++ [monitorResponse] })

/-! Management requests: the session and the tables. -/

/-- OPEN_SESSION takes a free session with a copy of ACTIVE as SHADOW, renews it for its holder with SHADOW kept, and
is answered HELD to another source; CLOSE_SESSION of the holder ends the session and discards SHADOW, and changes
nothing else (R10, R11, R146, R151, R155). -/
def Obligations.OpenSessionTakesOrRenews : Prop :=
  ∀ (s : State) (source tag : Byte), s.Deliverable source tag →
    (s.session = none → exec (.openSession source tag) s =
      .next (State.answered { s with session := some ⟨source, 2000, s.active⟩ } source tag 0x07 .ok
        (0x00 :: bytes2 s.generation.toNat))) ∧
    (∀ session, s.Holds source session → exec (.openSession source tag) s =
      .next (State.answered { s with session := some { session with lease := 2000 } } source tag 0x07 .ok
        (0x01 :: bytes2 s.generation.toNat))) ∧
    (∀ session, s.session = some session → session.holder ≠ source → exec (.openSession source tag) s =
      .next (s.answered source tag 0x07 .held [])) ∧
    (∀ session, s.Holds source session → exec (.closeSession source tag) s =
      .next (State.answered { s with session := none } source tag 0x0D .ok []))

/-- WRITE_PROFILE of the holder: BAD_INDEX beyond slot 31 with no field checked, BAD_VALUE with the field code of the
first field that fails, in the order of R5 and with the groups that are present, and SHADOW kept, or the slot of
SHADOW replaced whole and OK. CLEAR_PROFILE of the holder: BAD_INDEX beyond slot 31 with SHADOW kept, otherwise OK
with the slot EMPTY (R5, R6, 10.4). -/
def Obligations.WriteProfileChecksThenWrites : Prop :=
  ∀ (s : State) (source tag slot : Byte) (p : Profile) (session : Session), s.Deliverable source tag →
    s.Holds source session →
    let core : List (Byte × Bool) :=
      [(0x01, decide (1 ≤ p.openLevel ∧ p.openLevel ≤ 32767)),
        (0x02, decide (1 ≤ p.openDeadline ∧ p.openDeadline ≤ 255)),
        (0x03, decide (p.openLevel + 1 ≤ p.hitLevel ∧ p.hitLevel ≤ 32767)),
        (0x04, decide (p.openDeadline ≤ p.hitDeadline ∧ p.hitDeadline ≤ 1023)),
        (0x05, decide (p.hitLevel + 1 ≤ p.ocLevel ∧ p.ocLevel ≤ 32767)),
        (0x06, decide (p.settle ≤ 255)), (0x07, decide (p.gapLimit ≤ 15)), (0x08, decide (p.lockAfter ≤ 15))]
    let motion : List (Byte × Bool) := p.motion.elim [] fun m =>
      [(0x09, decide (1 ≤ m.peakDrop ∧ m.peakDrop ≤ 4095)), (0x0A, decide (1 ≤ m.valleyRise ∧ m.valleyRise ≤ 4095)),
        (0x0B, decide (m.reactionMin ≤ 1022)),
        (0x0C, decide (m.reactionMin + 1 ≤ m.reactionMax ∧ m.reactionMax ≤ 1023)),
        (0x0D, decide (m.travelMin ≤ 1022)),
        (0x0E, decide (m.travelMin + 1 ≤ m.travelMax ∧ m.travelMax ≤ 1023))]
    let measure : List (Byte × Bool) := p.measure.elim [] fun g =>
      [(0x0F, decide (1 ≤ g.window ∧ g.window ≤ 64)), (0x10, decide (1 ≤ g.rMin ∧ g.rMin ≤ 4000000)),
        (0x11, decide (g.rMin + 1 ≤ g.rMax ∧ g.rMax ≤ 4000000))]
    let checks := core ++ motion ++ measure;
    (32 ≤ slot.toNat → exec (.writeProfile source tag slot p) s =
      .next (s.answered source tag 0x08 .badIndex [])) ∧
    (∀ before code after, slot.toNat < 32 → checks = before ++ (code, false) :: after →
      (∀ check ∈ before, check.2 = true) → exec (.writeProfile source tag slot p) s =
        .next (s.answered source tag 0x08 .badValue [code])) ∧
    (∀ i : SlotIndex, slot.toNat = i.val → (∀ check ∈ checks, check.2 = true) →
      exec (.writeProfile source tag slot p) s =
        .next (State.answered
          { s with
            session := some
              { session with
                shadow := { session.shadow with slots := session.shadow.slots.set i.val (some p) } } }
          source tag 0x08 .ok [])) ∧
    (32 ≤ slot.toNat → exec (.clearProfile source tag slot) s =
      .next (s.answered source tag 0x09 .badIndex [])) ∧
    (∀ i : SlotIndex, slot.toNat = i.val → exec (.clearProfile source tag slot) s =
      .next (State.answered
        { s with
          session := some
            { session with shadow := { session.shadow with slots := session.shadow.slots.set i.val none } } }
        source tag 0x09 .ok []))

/-- A profile record has no failing field exactly when it satisfies every range and relation of R2, and those of R3
and R4 for the groups it has (R2, R3, R4, R5). -/
def Obligations.ProfileChecksAreTheRanges : Prop :=
  ∀ p : Profile, p.badField = none ↔
    (1 ≤ p.openLevel ∧ p.openLevel < p.hitLevel ∧ p.hitLevel < p.ocLevel ∧ p.ocLevel ≤ 32767 ∧
      1 ≤ p.openDeadline ∧ p.openDeadline ≤ 255 ∧ p.openDeadline ≤ p.hitDeadline ∧ p.hitDeadline ≤ 1023 ∧
      p.settle ≤ 255 ∧ p.gapLimit ≤ 15 ∧ p.lockAfter ≤ 15) ∧
    (∀ m ∈ p.motion, 1 ≤ m.peakDrop ∧ m.peakDrop ≤ 4095 ∧ 1 ≤ m.valleyRise ∧ m.valleyRise ≤ 4095 ∧
      m.reactionMin < m.reactionMax ∧ m.reactionMax ≤ 1023 ∧ m.travelMin < m.travelMax ∧ m.travelMax ≤ 1023) ∧
    (∀ g ∈ p.measure, 1 ≤ g.window ∧ g.window ≤ 64 ∧ 1 ≤ g.rMin ∧ g.rMin < g.rMax ∧ g.rMax ≤ 4000000)

/-- WRITE_MAP of the holder: BAD_VALUE with 20H plus the lowest channel whose entry is neither 00H to 1FH nor FFH, and
the map kept, or the whole SHADOW map replaced and OK (R7). -/
def Obligations.WriteMapChecksThenReplaces : Prop :=
  ∀ (s : State) (source tag : Byte) (entries : Vector Byte 16) (session : Session), s.Deliverable source tag →
    s.Holds source session →
    (∀ ch : ChannelId, 32 ≤ entries[ch.val].toNat → entries[ch.val] ≠ 0xFF →
      (∀ c : ChannelId, c < ch → entries[c.val].toNat < 32 ∨ entries[c.val] = 0xFF) →
      exec (.writeMap source tag entries) s =
        .next (s.answered source tag 0x0A .badValue [BitVec.ofNat 8 (0x20 + ch.val)])) ∧
    ((∀ c : ChannelId, entries[c.val].toNat < 32 ∨ entries[c.val] = 0xFF) →
      ∃ map, exec (.writeMap source tag entries) s =
          .next (State.answered { s with session := some { session with shadow := { session.shadow with map } } }
            source tag 0x0A .ok []) ∧
        ∀ c : ChannelId,
          (∀ i : SlotIndex, entries[c.val].toNat = i.val → map[c.val] = some i) ∧
          (entries[c.val] = 0xFF → map[c.val] = none))

/-- WRITE_POLICY of the holder: BAD_VALUE with the code of the first value that fails in the order of R8, and the
policy kept, or the whole SHADOW policy replaced and OK (R9). -/
def Obligations.WritePolicyChecksThenReplaces : Prop :=
  ∀ (s : State) (source tag : Byte) (p : Policy) (session : Session), p.fits = true → s.Deliverable source tag →
    s.Holds source session →
    let driverBad := p.driverAddress = 0x00 ∨ p.driverAddress = 0xFF ∨ p.driverAddress = s.ownAddress
    let sinkBad := p.sinkAddress = 0xFF ∨ p.sinkAddress = s.ownAddress
    let retransmitBad := p.retransmitMs < 10 ∨ 1000 < p.retransmitMs
    let silenceBad := p.silenceMs < 2 ∨ 250 < p.silenceMs
    let okBad := p.supplyLow ≠ 0 ∧ p.supplyOk < p.supplyLow
    let refused := fun code : Byte => exec (.writePolicy source tag p) s =
      .next (s.answered source tag 0x0B .badValue [code]);
    (driverBad → refused 0x30) ∧ (¬driverBad → sinkBad → refused 0x31) ∧
    (¬driverBad → ¬sinkBad → retransmitBad → refused 0x32) ∧
    (¬driverBad → ¬sinkBad → ¬retransmitBad → silenceBad → refused 0x33) ∧
    (¬driverBad → ¬sinkBad → ¬retransmitBad → ¬silenceBad → okBad → refused 0x35) ∧
    (¬driverBad → ¬sinkBad → ¬retransmitBad → ¬silenceBad → ¬okBad →
      exec (.writePolicy source tag p) s =
        .next (State.answered
          { s with session := some { session with shadow := { session.shadow with policy := p } } }
          source tag 0x0B .ok []))

/-- COMMIT of the holder. Where a SHADOW map entry names an EMPTY slot: INCONSISTENT with the lowest such channel, and
nothing changes. Otherwise SHADOW becomes ACTIVE, the generation rises by one (65535 is followed by 1), GENERATION is
handed, the session ends; a changed sink address moves the sender, and an unchanged one does not disturb it (R13, R14,
R16, R133, R134). That the timer of a changed sink starts with the retransmit_ms of the new bank is the model's
reading of R134, log entry 20. -/
def Obligations.CommitChangesOverTheTables : Prop :=
  ∀ (s : State) (source tag : Byte) (session : Session), s.Deliverable source tag → s.Holds source session →
    (∀ ch : ChannelId,
      (∃ slot, session.shadow.map[ch.val] = some slot ∧ session.shadow.slots[slot.val] = none) →
      (∀ c : ChannelId, c < ch → ∀ slot, session.shadow.map[c.val] = some slot →
        session.shadow.slots[slot.val] ≠ none) →
      exec (.commit source tag) s = .next (s.answered source tag 0x0C .inconsistent [BitVec.ofNat 8 ch.val])) ∧
    ((∀ (c : ChannelId) (slot : SlotIndex), session.shadow.map[c.val] = some slot →
        session.shadow.slots[slot.val] ≠ none) → (s.report.lossCount = 0 ∨ s.report.total = 48) →
      let generation : Half := if s.generation.toNat = 65535 then 1 else s.generation + 1
      let sink := session.shadow.policy.sinkAddress
      exec (.commit source tag) s = .next (State.answered
        { s with
          active := session.shadow
          generation
          session := none
          report :=
            ReportQueue.hand
              (if sink = s.active.policy.sinkAddress then s.report
              else
                { s.report with
                  cursor := 0
                  retryCount := 0
                  sender := if sink = 0x00 then .noSink else .ready
                  retransmitTimer :=
                    if sink = 0x00 ∨ s.report.window = [] then none
                    else some session.shadow.policy.retransmitMs })
              [.generation generation] }
        source tag 0x0C .ok (bytes2 generation.toNat)))

/-- UNLOCK_CHANNEL of the holder on a LOCKED channel: TRIPPED if its injection is pending and OPEN if not, fail count
0, an UNLOCKED record; on any other channel nothing; the answer carries the disposition afterwards (R35, R36, R156).
-/
def Obligations.UnlockLeavesLocked : Prop :=
  ∀ (s : State) (source tag channel : Byte) (session : Session), s.Deliverable source tag → s.Holds source session →
    (16 ≤ channel.toNat → exec (.unlockChannel source tag channel) s =
      .next (s.answered source tag 0x0E .badIndex [])) ∧
    (∀ ch : ChannelId, channel.toNat = ch.val → (s.channel ch).disposition ≠ .locked →
      exec (.unlockChannel source tag channel) s =
        .next (s.answered source tag 0x0E .ok [channel, (s.channel ch).disposition.code])) ∧
    (∀ ch : ChannelId, channel.toNat = ch.val → (s.channel ch).disposition = .locked →
      let disposition : Disposition := if (s.channel ch).pendingInjection then .tripped else .open_
      exec (.unlockChannel source tag channel) s =
        .next (State.answered
          { s with
            channels := s.channels.set ch.val { s.channel ch with disposition, failCount := 0 }
            report := s.report.hand [.unlocked ch] }
          source tag 0x0E .ok [channel, disposition.code]))

/-- ACK_REPORTS of the sink naming a record of the window: that record and all ahead of it leave, the cursor falls
with them, the retries are 0, a STALLED sender is READY, the timer starts again or stops, and a counted loss is
announced; the answer carries the records left (R121, R130, R157). -/
def Obligations.AcknowledgementRemovesTheFront : Prop :=
  ∀ (s : State) (source tag : Byte) (number : Half) (before after : List SentRecord) (r : Record),
    s.Deliverable source tag → source = s.active.policy.sinkAddress → source ≠ 0x00 →
    s.report.window = before ++ ⟨number, r⟩ :: after → (∀ sent ∈ before, sent.number ≠ number) →
    s.report.total ≤ 48 →
    exec (.ackReports source tag number) s =
      .next (State.answered
        { s with
          report :=
            { s.report with
              window := after
              unsent := s.report.unsent ++ (if s.report.lossCount = 0 then [] else [.loss s.report.lossCount])
              lossCount := 0
              cursor := s.report.cursor - (before.length + 1)
              retryCount := 0
              sender := if s.report.sender = .stalled then .ready else s.report.sender
              retransmitTimer := if after = [] then none else some s.active.policy.retransmitMs } }
        source tag 0x0F .ok [BitVec.ofNat 8 after.length])

/-- An acknowledgement that names no record of the window is STALE and only counts; one from a source other than the
sink, or with no sink set, is NOT_SINK and does not reach the queue (R131, and the source check of R157). -/
def Obligations.StaleAndForeignAcknowledgements : Prop :=
  ∀ (s : State) (source tag : Byte) (number : Half), s.Deliverable source tag →
    (source = s.active.policy.sinkAddress → source ≠ 0x00 → (∀ sent ∈ s.report.window, sent.number ≠ number) →
      exec (.ackReports source tag number) s =
        .next (State.answered { s with monitor := { s.monitor with staleAck := s.monitor.staleAck + 1 } }
          source tag 0x0F .stale [])) ∧
    (source ≠ s.active.policy.sinkAddress ∨ s.active.policy.sinkAddress = 0x00 →
      exec (.ackReports source tag number) s = .next (s.answered source tag 0x0F .notSink []))

/-- WARM_RESTART of the holder: the seven steps of R160 and nothing else (R20, R80, R113, R136, R160). -/
def Obligations.WarmRestartClearsTheBookkeeping : Prop :=
  ∀ (s : State) (source tag : Byte) (session : Session), s.Deliverable source tag → s.Holds source session →
    ∃ channels : Vector Channel 16,
      (∀ ch : ChannelId, channels[ch.val] =
        { s.channel ch with episode := none, opened := 0, passed := 0, failed := 0, neutral := 0, trips := 0 }) ∧
      exec (.warmRestart source tag) s = .next (State.answered
        { s with
          session := none
          channels
          observer := ⟨none, .ok, .silent, none⟩
          report :=
            ⟨[], [.restarted s.generation], 0, 1, 0, 0, none,
              if s.active.policy.sinkAddress = 0x00 then .noSink else .ready⟩
          monitor :=
            { s.monitor with
              responseDiscarded := s.monitor.responseDiscarded + BitVec.ofNat 32 s.responses.length }
          responses := []
          cache := [] }
        source tag 0x10 .ok (bytes2 s.generation.toNat))

/-- A request that needs the session is answered NO_SESSION while none is held and HELD while another source holds it,
and has no effect beyond its answer (R147). -/
def Obligations.AuthorityIsCheckedFirst : Prop :=
  ∀ (s : State) (i : Instr) (source tag : Byte) (r : Request), i.request? = some (source, tag, r) →
    r.holderOnly = true → s.Deliverable source tag →
    (s.session = none → exec i s = .next (s.answered source tag r.code .noSession [])) ∧
    (∀ session, s.session = some session → session.holder ≠ source →
      exec i s = .next (s.answered source tag r.code .held []))

/-- A request whose source and tag the reply cache holds is a repeat, whatever its kind and arguments, as a row or as a
frame to the own address, well formed or malformed: with room, a copy of the cached response is queued, the entry
becomes the most recently used, the replay counter rises, the frame is counted as received, and nothing else happens
but what the arbiters do. So a request sent again right behind its execution is answered with the same response and
executed no second time (R139, R140, R143, R165). -/
def Obligations.RetriedRequestIsReplayed : Prop :=
  (∀ (s : State) (source tag : Byte) (response : Frame) (before after : List CacheEntry), s.cPort.up = true →
    s.responses.length < 4 → s.cache = before ++ ⟨source, tag, response⟩ :: after →
    (∀ e ∈ before, e.source ≠ source ∨ e.tag ≠ tag) →
    let replayed := State.arbitrate
      { s with
        cPort := { s.cPort with received := s.cPort.received + 1 }
        monitor := { s.monitor with replay := s.monitor.replay + 1 }
        responses := s.responses ++ [response]
        cache := (⟨source, tag, response⟩ :: s.cache.filter fun e => decide (e.source ≠ source)).take 4 };
    (∀ (i : Instr) (r : Request), i.request? = some (source, tag, r) → exec i s = .next replayed) ∧
    (∀ (bytes : List Byte) (f : Frame), checkFrame bytes = .valid f → f.kind = Frame.requestKind →
      f.destination = s.ownAddress → f.source = source → f.sequence = tag →
      exec (.cPortReceipt bytes) s = .next replayed)) ∧
  (∀ (s t : State) (i : Instr) (source tag : Byte) (r : Request), i.request? = some (source, tag, r) →
    s.Deliverable source tag → exec i s = .next t → t.responses.length < 4 →
    ∃ response, t.cache.head? = some ⟨source, tag, response⟩ ∧
      (response ∈ t.responses ∨ t.cPort.sending = some response) ∧
      exec i t = .next (State.arbitrate
        { t with
          cPort := { t.cPort with received := t.cPort.received + 1 }
          monitor := { t.monitor with replay := t.monitor.replay + 1 }
          responses := t.responses ++ [response] }))

/-- With four responses waiting, a new request is dropped without any effect but its counters, and so is a repeat
(R140, R143). -/
def Obligations.FullResponseQueueDropsRequests : Prop :=
  ∀ (s : State) (i : Instr) (source tag : Byte) (r : Request), i.request? = some (source, tag, r) →
    s.cPort.up = true → responseCapacity ≤ s.responses.length →
    (s.cached source tag = none → exec i s = .next (State.arbitrate
      { s with
        cPort := { s.cPort with received := s.cPort.received + 1 }
        monitor := { s.monitor with requestDropped := s.monitor.requestDropped + 1 } })) ∧
    (s.cached source tag ≠ none → exec i s = .next (State.arbitrate
      { s with
        cPort := { s.cPort with received := s.cPort.received + 1 }
        monitor := { s.monitor with replayDropped := s.monitor.replayDropped + 1 } }))

/-! Headlines. -/

/-- A request's payload is its kind byte and its arguments, byte for byte as 10.4 lays them out. Decoding it gives the
request back, for every well-formed request of every kind and every value of its fields, and a payload decodes to a
request only if it is that request's payload (R141, R183, 10.4). -/
def Obligations.RequestsDecodeExactly : Prop :=
  (∀ r : Request,
    let one := fun n : Nat => [BitVec.ofNat 8 n]
    let two := fun n : Nat => [BitVec.ofNat 8 (n / 256), BitVec.ofNat 8 n]
    let four := fun n : Nat =>
      [BitVec.ofNat 8 (n / 16777216), BitVec.ofNat 8 (n / 65536), BitVec.ofNat 8 (n / 256), BitVec.ofNat 8 n]
    let flag := fun present : Bool => if present then (0x01 : Byte) else 0x00
    let bank := fun b : BankName =>
      match b with
      | .active => (0x00 : Byte)
      | .shadow => 0x01
    r.payload =
      match r with
      | .identify => [0x01]
      | .readChannel channel => [0x02, channel]
      | .readProfile b slot => [0x03, bank b, slot]
      | .readMap b => [0x04, bank b]
      | .readPolicy b => [0x05, bank b]
      | .readCounters .port clear => [0x06, 0x00, flag clear]
      | .readCounters .monitor clear => [0x06, 0x01, flag clear]
      | .openSession => [0x07]
      | .writeProfile slot p =>
        [0x08, slot, flag p.motion.isSome, flag p.measure.isSome] ++ two p.openLevel ++ one p.openDeadline ++
          two p.hitLevel ++ two p.hitDeadline ++ two p.ocLevel ++ one p.settle ++ one p.gapLimit ++ one p.lockAfter ++
          (p.motion.elim [] fun m => two m.peakDrop ++ two m.valleyRise ++ two m.reactionMin ++ two m.reactionMax ++
            two m.travelMin ++ two m.travelMax) ++
          p.measure.elim [] fun g => one g.window ++ four g.rMin ++ four g.rMax
      | .clearProfile slot => [0x09, slot]
      | .writeMap entries => 0x0A :: entries.toList
      | .writePolicy p =>
        [0x0B, p.driverAddress, p.sinkAddress] ++ two p.retransmitMs ++ one p.silenceMs ++ two p.supplyLow ++
          two p.supplyOk
      | .commit => [0x0C]
      | .closeSession => [0x0D]
      | .unlockChannel channel => [0x0E, channel]
      | .ackReports number => 0x0F :: two number.toNat
      | .warmRestart => [0x10]) ∧
  (∀ r : Request, r.wellFormed = true → decodeRequest r.payload = some r) ∧
  (∀ (payload : List Byte) (r : Request), decodeRequest payload = some r → payload = r.payload ∧ r.wellFormed = true)

/-- A request row is the receipt on the C-port of the frame that carries the request, byte for byte: kind 04H, the own
address, the source, the tag as the sequence byte, the request's payload and the check sequence (R139, R165, R180,
10.4). That the row stands for the whole receipt is the model's reading, log entry 8. -/
def Obligations.RequestRowsAreReceipts : Prop :=
  ∀ (s : State) (i : Instr) (source tag : Byte) (r : Request), i.request? = some (source, tag, r) →
    i.wellFormed = true →
    let body := [0x04, s.ownAddress, source, tag, BitVec.ofNat 8 r.payload.length] ++ r.payload
    let crc := (crc16 body).toNat
    exec i s = exec (.cPortReceipt (body ++ [BitVec.ofNat 8 (crc / 256), BitVec.ofNat 8 crc])) s

/-- No ENERGIZE for a TRIPPED or LOCKED channel reaches the driver: in every step that begins with the channel TRIPPED
or LOCKED and the arbiters at rest, the channel does not become energized, and no COMMAND frame to the driver that
starts transmission holds an ENERGIZE for it (R22, R29). That the arbiters are at rest is kept by every step
(StepKeepsQueuesAndPorts). -/
def Obligations.BlockedChannelIsNeverEnergized : Prop :=
  ∀ (s t : State) (ch : ChannelId), s.Arbitrated → step s = .next t → (s.channel ch).disposition ≠ .open_ →
    ((t.channel ch).energized = true → (s.channel ch).energized = true) ∧
    (∀ f entries, t.dPort.sending = some f →
      s.dPort.sending ≠ some f ∨ s.pending.head? = some (.transmissionComplete .dPort) →
      f.kind = Frame.commandKind → f.destination = s.active.policy.driverAddress →
      readCommand f.payload = some entries → ∀ e ∈ entries, e.channel = ch → e.action ≠ 1)

/-! Invariants. -/

/-- The state after reset is sound in every respect that the statements below say every step keeps; its own address is
the model's choice, log entry 1. -/
def Obligations.ResetIsSound : Prop :=
  State.reset.ChannelsSound ∧ State.reset.ChannelsBalanced ∧ State.reset.StreamSound ∧ State.reset.ReportSound ∧
    State.reset.TablesSound ∧ State.reset.GenerationSound ∧ State.reset.QueuesBounded ∧ State.reset.PortsSound ∧
    State.reset.Arbitrated ∧ State.reset.AddressSound ∧ State.reset.FramesIntact

/-- Every step keeps the channel contexts sound (an episode only on an energized OPEN channel with a snapshot, an
injection pending only on an energized channel that is not OPEN) and their counters balanced (R18, R24, R40, R68,
R69). -/
def Obligations.StepKeepsChannelsSoundAndBalanced : Prop :=
  ∀ s t : State, s.ChannelsSound → s.ChannelsBalanced → step s = .next t → t.ChannelsSound ∧ t.ChannelsBalanced

/-- Every step keeps the sample stream's state sound: SILENT means no reference and no timer, and an open episode
means that the driver is ACTIVE, the supply OK and a reference present (R41, R100). -/
def Obligations.StepKeepsStreamSound : Prop :=
  ∀ s t : State, s.ChannelsSound → s.StreamSound → step s = .next t → t.StreamSound

/-- Every step keeps the report queue sound: its capacities, the cursor within the window, consecutive numbers, the
timer's running, one coalesced record per kind and channel, and NO_SINK exactly without a sink (R118, R119, R121,
R122, R123, R125). -/
def Obligations.StepKeepsReportSound : Prop :=
  ∀ s t : State, s.ReportSound → step s = .next t → t.ReportSound

/-- Every step keeps the tables sound: every record in a bank or a snapshot has passed its checks, ACTIVE is
consistent, and the generation is 0 only while nothing is mapped (R2 to R9, R13, R14). -/
def Obligations.StepKeepsTablesSound : Prop :=
  ∀ s t : State, s.AddressSound → s.TablesSound → s.GenerationSound → step s = .next t →
    t.AddressSound ∧ t.TablesSound ∧ t.GenerationSound

/-- Every step keeps the capacities of the frame queues and of the cache, one cache entry per source, DOWN ports
silent, and the arbiters at rest: wherever a port is UP, its transmitter free and a source waits, the selected departure
has been taken, or its row waits for it in the queue of commands (R143, R145, R163, R167 to R171, R175). That a row can
wait for its departure is the model's reading, log entry 3. -/
def Obligations.StepKeepsQueuesAndPorts : Prop :=
  ∀ s t : State, s.QueuesBounded → s.PortsSound → s.Arbitrated → step s = .next t →
    t.QueuesBounded ∧ t.PortsSound ∧ t.Arbitrated

/-- Every step keeps every waiting or departing frame intact: no frame with a damaged check sequence leaves the part
(chapter 9, R32, R164, R180). -/
def Obligations.StepKeepsFramesIntact : Prop :=
  ∀ s t : State, s.FramesIntact → step s = .next t → t.FramesIntact

/-! Episodes, verdicts and records. -/

/-- The resistance check at the entry that completes the window: no resistance and RES_HIGH for a current sum of 0 or
below; otherwise 1000 times the voltage sum divided by the current sum, rounded down, within the 32-bit field, 0 for
voltages of 0, and RES_LOW, RES_HIGH or PASS against r_min and r_max; the VERDICT carries it exactly when it is
computed (R73, R74). -/
def Obligations.ResistanceIsExact : Prop :=
  ∀ (e : Episode) (g : MeasureGroup) (entry : SampleEntry) (c : Channel) (ch : ChannelId) (sn : Snapshot),
    g.window ≤ e.measureCount + 1 → 1 ≤ g.rMin → g.rMin < g.rMax →
    let sumCurrent := e.sumCurrent + entry.current
    let sumVoltage := e.sumVoltage + entry.voltage
    ∃ (e' : Episode) (outcome : EpisodeOutcome) (r : Option Nat), e.stepMeasure g entry = .closes e' outcome r ∧
      (verdictOf c ch sn e' outcome r).resistance = r ∧
      (verdictOf c ch sn e' outcome r).presence.getLsbD 3 = r.isSome ∧
      (sumCurrent ≤ 0 → r = none ∧ outcome = .resHigh) ∧
      (0 < sumCurrent → ∃ n : Nat, r = some n ∧
        (n : Int) * sumCurrent ≤ 1000 * sumVoltage ∧ 1000 * (sumVoltage : Int) < (n + 1) * sumCurrent ∧
        (sumVoltage ≤ 4194240 → n ≤ 4194240000) ∧ (sumVoltage = 0 → n = 0 ∧ outcome = .resLow) ∧
        (n < g.rMin → outcome = .resLow) ∧ (g.rMax < n → outcome = .resHigh) ∧
        (g.rMin ≤ n → n ≤ g.rMax → outcome = .pass))

/-- The steps of an accepted frame on an open episode. A present entry at or above oc_level trips; otherwise a gap
above gap_limit closes VOID_GAP; otherwise a present entry moves open seen, the hit and then the phase; and on an
episode that is still open, with an entry or without, at most one deadline closes it, in the order OPEN_LOAD,
HIT_MISSED, NO_MOTION, the last in RAMP and DIP alone (R46, R49, R50, R51, R61). -/
def Obligations.DeadlinesCloseInOrder : Prop :=
  ∀ (e : Episode) (p : Profile) (x : Half),
    let deadlines := fun e' : Episode =>
      if p.openDeadline ≤ e'.elapsed ∧ e'.openSeen = false then EpisodeStep.closes e' .openLoad none
      else if p.hitDeadline ≤ e'.elapsed ∧ e'.hit = none then .closes e' .hitMissed none
      else
        match p.motion with
        | some m =>
          if (e'.phase = .ramp ∨ e'.phase = .dip) ∧ m.reactionMax < e'.elapsed then .closes e' .noMotion none
          else .stays e'
        | none => .stays e';
    (let counted := e.count x false;
      (p.gapLimit < counted.gap → e.handle p x none = .closes counted .voidGap none) ∧
      (counted.gap ≤ p.gapLimit → e.handle p x none = deadlines counted)) ∧
    (∀ entry : SampleEntry,
      let counted := e.count x true
      let tracked :=
        { counted with
          openSeen := e.openSeen || decide ((p.openLevel : Int) ≤ entry.current)
          hit := if e.hit = none ∧ (p.hitLevel : Int) ≤ entry.current then some x else e.hit };
      ((p.ocLevel : Int) ≤ entry.current → e.handle p x (some entry) = .trips counted) ∧
      (entry.current < (p.ocLevel : Int) → p.gapLimit < counted.gap →
        e.handle p x (some entry) = .closes counted .voidGap none) ∧
      (entry.current < (p.ocLevel : Int) → counted.gap ≤ p.gapLimit →
        (∀ e', tracked.stepPhase p x entry = .stays e' → e.handle p x (some entry) = deadlines e') ∧
        (∀ e' outcome r, tracked.stepPhase p x entry = .closes e' outcome r →
          e.handle p x (some entry) = .closes e' outcome r)))

/-- The phase step of a present entry. RAMP: the running maximum takes a greater current with its index, a tie keeps
the earlier one, and a current at or below it less peak_drop confirms the peak and begins DIP with the running minimum.
DIP: the running minimum in the same way, and a current at or above it plus valley_rise confirms the valley, whose
reaction and travel name EARLY_MOTION, TRAVEL_SHORT, TRAVEL_LONG or, with none of these, begin CLIMB. CLIMB waits for
the hit and then passes to SETTLE, to MEASURE or to PASS by settle and the measure group; SETTLE counts its entries and
passes on at settle; MEASURE sums the entry exactly, stays open below the window, and closes at the entry that
completes it, the sums and the count the episode's only changes: RES_HIGH without a resistance for a current sum of 0
or below, otherwise RES_LOW, RES_HIGH or PASS by the quotient of the sums against r_min and r_max (R52 to R60, R73,
R74). -/
def Obligations.PhasesConfirmAndComplete : Prop :=
  (∀ (e : Episode) (p : Profile) (m : MotionGroup) (x : Half) (entry : SampleEntry), p.motion = some m →
    (∀ top : Mark,
      (e.runningMax = none ∧ top = ⟨x, entry.current⟩ ∨
        ∃ held, e.runningMax = some held ∧ top = if held.current < entry.current then ⟨x, entry.current⟩ else held) →
      e.phase = .ramp →
      (entry.current ≤ top.current - m.peakDrop → e.stepPhase p x entry =
        .stays
          { e with
            runningMax := some top, peak := some top, runningMin := some ⟨x, entry.current⟩, phase := .dip }) ∧
      (top.current - m.peakDrop < entry.current → e.stepPhase p x entry =
        .stays { e with runningMax := some top })) ∧
    (∀ (held peak : Mark), e.runningMin = some held → e.peak = some peak → e.phase = .dip →
      let bottom : Mark := if entry.current < held.current then ⟨x, entry.current⟩ else held
      let reaction := (bottom.index - e.cmdIndex).toNat
      let travel := (bottom.index - peak.index).toNat
      let confirmed := { e with runningMin := some bottom, valley := some bottom };
      (entry.current < bottom.current + m.valleyRise → e.stepPhase p x entry =
        .stays { e with runningMin := some bottom }) ∧
      (bottom.current + m.valleyRise ≤ entry.current →
        (reaction < m.reactionMin → e.stepPhase p x entry = .closes confirmed .earlyMotion none) ∧
        (m.reactionMin ≤ reaction → travel < m.travelMin →
          e.stepPhase p x entry = .closes confirmed .travelShort none) ∧
        (m.reactionMin ≤ reaction → m.travelMin ≤ travel → m.travelMax < travel →
          e.stepPhase p x entry = .closes confirmed .travelLong none) ∧
        (m.reactionMin ≤ reaction → m.travelMin ≤ travel → travel ≤ m.travelMax →
          e.stepPhase p x entry = .stays { confirmed with phase := .climb })))) ∧
  (∀ (e : Episode) (p : Profile) (x : Half) (entry : SampleEntry),
    let measuring := fun e' : Episode =>
      { e' with phase := .measure, sumCurrent := 0, sumVoltage := 0, measureCount := 0 };
    (e.phase = .climb →
      (e.hit = none → e.stepPhase p x entry = .stays e) ∧
      (e.hit ≠ none → 0 < p.settle → e.stepPhase p x entry = .stays { e with phase := .settle, settleCount := 0 }) ∧
      (e.hit ≠ none → p.settle = 0 → p.measure ≠ none → e.stepPhase p x entry = .stays (measuring e)) ∧
      (e.hit ≠ none → p.settle = 0 → p.measure = none → e.stepPhase p x entry = .closes e .pass none)) ∧
    (e.phase = .settle →
      let counted := { e with settleCount := e.settleCount + 1 };
      (counted.settleCount < p.settle → e.stepPhase p x entry = .stays counted) ∧
      (p.settle ≤ counted.settleCount → p.measure ≠ none →
        e.stepPhase p x entry = .stays (measuring counted)) ∧
      (p.settle ≤ counted.settleCount → p.measure = none →
        e.stepPhase p x entry = .closes counted .pass none)) ∧
    (∀ g, e.phase = .measure → p.measure = some g → e.measureCount + 1 < g.window →
      e.stepPhase p x entry =
        .stays
          { e with
            sumCurrent := e.sumCurrent + entry.current
            sumVoltage := e.sumVoltage + entry.voltage
            measureCount := e.measureCount + 1 }) ∧
    (∀ g, e.phase = .measure → p.measure = some g → g.window ≤ e.measureCount + 1 →
      let sumCurrent := e.sumCurrent + entry.current
      let sumVoltage := e.sumVoltage + entry.voltage
      let summed := { e with sumCurrent, sumVoltage, measureCount := e.measureCount + 1 }
      let r := 1000 * sumVoltage / sumCurrent.toNat;
      (sumCurrent ≤ 0 → e.stepPhase p x entry = .closes summed .resHigh none) ∧
      (0 < sumCurrent →
        (r < g.rMin → e.stepPhase p x entry = .closes summed .resLow (some r)) ∧
        (g.rMin ≤ r → g.rMax < r → e.stepPhase p x entry = .closes summed .resHigh (some r)) ∧
        (g.rMin ≤ r → r ≤ g.rMax → e.stepPhase p x entry = .closes summed .pass (some r)))))

/-- Whatever a frame does to an episode, the counts are those of step 1, the command index is kept, a hit once
recorded stays, open seen once set stays, and a phase is left forward only (R47, R51, R52, R62). -/
def Obligations.EpisodeCountsAndMovesForward : Prop :=
  ∀ (e e' : Episode) (p : Profile) (x : Half) (entry : Option SampleEntry),
    (e.handle p x entry = .stays e' ∨ (∃ o r, e.handle p x entry = .closes e' o r) ∨
      e.handle p x entry = .trips e') →
    e'.cmdIndex = e.cmdIndex ∧ e'.elapsed = (x - e.cmdIndex).toNat ∧
      e'.seen = e.seen + (if entry.isSome then 1 else 0) ∧ e'.gap = e'.elapsed - e'.seen ∧
      (e.openSeen = true → e'.openSeen = true) ∧ (∀ h, e.hit = some h → e'.hit = some h) ∧
      e.phase.code.toNat ≤ e'.phase.code.toNat

/-- Handing records never touches the window, the cursor, the numbering, the retries, the timer or the sender; it
never removes a record other than a PASS VERDICT and changes none but the counts of BLOCKED and MALFORMED. A BLOCKED
or MALFORMED record that meets an unsent one of its kind and channel raises that one's count, at most to 255, in its
place and takes none itself. Any other record takes a free place at the back; at 48 records it takes the place of the
oldest unsent PASS VERDICT, or is discarded, and either counts one loss, at most to 65535. A group of records is
placed one after another (R117, R118, R119, R120, R121, R186). -/
def Obligations.HandedRecordsKeepTheQueue : Prop :=
  ∀ (q : ReportQueue) (records : List Record),
    ((q.hand records).window = q.window ∧ (q.hand records).cursor = q.cursor ∧
      (q.hand records).nextSequence = q.nextSequence ∧ (q.hand records).retryCount = q.retryCount ∧
      (q.hand records).retransmitTimer = q.retransmitTimer ∧ (q.hand records).sender = q.sender ∧
      (∀ r ∈ q.unsent, r.isPass = false → (∀ ch n, r ≠ .blocked ch n) → (∀ n, r ≠ .malformed n) →
        r ∈ (q.hand records).unsent) ∧
      (q.total ≤ queueCapacity → (q.hand records).total ≤ queueCapacity) ∧
      (q.HasRoom records.length → (∀ r ∈ records, (∀ ch n, r ≠ .blocked ch n) ∧ ∀ n, r ≠ .malformed n) →
        q.hand records = { q with unsent := q.unsent ++ records })) ∧
    ((q.lossCount = 0 ∨ q.total = queueCapacity) →
      q.hand records = records.foldl (fun q r => q.hand [r]) q ∧
      (∀ ch n k before after, q.unsent = before ++ Record.blocked ch n :: after →
        (∀ r ∈ before, ∀ j, r ≠ .blocked ch j) →
        q.hand [.blocked ch k] =
          { q with unsent := before ++ .blocked ch (min 255 (n + 1)) :: after }) ∧
      (∀ n k before after, q.unsent = before ++ Record.malformed n :: after → (∀ r ∈ before, ∀ j, r ≠ .malformed j) →
        q.hand [.malformed k] = { q with unsent := before ++ .malformed (min 255 (n + 1)) :: after }) ∧
      (∀ r, (∀ ch n, r = .blocked ch n → ∀ k, Record.blocked ch k ∉ q.unsent) →
        (∀ n, r = .malformed n → ∀ k, Record.malformed k ∉ q.unsent) →
        (q.total < queueCapacity → q.hand [r] = { q with unsent := q.unsent ++ [r] }) ∧
        (∀ pass before after, q.total = queueCapacity → q.unsent = before ++ pass :: after → pass.isPass = true →
          (∀ x ∈ before, x.isPass = false) →
          q.hand [r] =
            { q with unsent := before ++ after ++ [r], lossCount := min 65535 (q.lossCount + 1) }) ∧
        (q.total = queueCapacity → (∀ x ∈ q.unsent, x.isPass = false) →
          q.hand [r] = { q with lossCount := min 65535 (q.lossCount + 1) })))
end

