-- ==== Sys2Proof/Laws/State.lean ====
section
/-! SUPPORT. One lemma per field per named update of `State`, so that no later proof unfolds a record update. -/

namespace Sys2Proof.Machine

variable (s : State)

/-! A channel's context replaced. -/

@[simp] theorem State.setChannel_ownAddress (ch : ChannelId) (c : Channel) :
    (s.setChannel ch c).ownAddress = s.ownAddress := rfl
@[simp] theorem State.setChannel_active (ch : ChannelId) (c : Channel) : (s.setChannel ch c).active = s.active := rfl
@[simp] theorem State.setChannel_generation (ch : ChannelId) (c : Channel) :
    (s.setChannel ch c).generation = s.generation := rfl
@[simp] theorem State.setChannel_session (ch : ChannelId) (c : Channel) :
    (s.setChannel ch c).session = s.session := rfl
@[simp] theorem State.setChannel_channels (ch : ChannelId) (c : Channel) :
    (s.setChannel ch c).channels = s.channels.set ch.val c := rfl
@[simp] theorem State.setChannel_observer (ch : ChannelId) (c : Channel) :
    (s.setChannel ch c).observer = s.observer := rfl
@[simp] theorem State.setChannel_injectionCounter (ch : ChannelId) (c : Channel) :
    (s.setChannel ch c).injectionCounter = s.injectionCounter := rfl
@[simp] theorem State.setChannel_report (ch : ChannelId) (c : Channel) : (s.setChannel ch c).report = s.report := rfl
@[simp] theorem State.setChannel_cache (ch : ChannelId) (c : Channel) : (s.setChannel ch c).cache = s.cache := rfl
@[simp] theorem State.setChannel_responses (ch : ChannelId) (c : Channel) :
    (s.setChannel ch c).responses = s.responses := rfl
@[simp] theorem State.setChannel_dfq (ch : ChannelId) (c : Channel) : (s.setChannel ch c).dfq = s.dfq := rfl
@[simp] theorem State.setChannel_ufq (ch : ChannelId) (c : Channel) : (s.setChannel ch c).ufq = s.ufq := rfl
@[simp] theorem State.setChannel_cPort (ch : ChannelId) (c : Channel) : (s.setChannel ch c).cPort = s.cPort := rfl
@[simp] theorem State.setChannel_dPort (ch : ChannelId) (c : Channel) : (s.setChannel ch c).dPort = s.dPort := rfl
@[simp] theorem State.setChannel_misaddressed (ch : ChannelId) (c : Channel) :
    (s.setChannel ch c).misaddressed = s.misaddressed := rfl
@[simp] theorem State.setChannel_marker (ch : ChannelId) (c : Channel) : (s.setChannel ch c).marker = s.marker := rfl
@[simp] theorem State.setChannel_dSelected (ch : ChannelId) (c : Channel) :
    (s.setChannel ch c).dSelected = s.dSelected := rfl
@[simp] theorem State.setChannel_cSelected (ch : ChannelId) (c : Channel) :
    (s.setChannel ch c).cSelected = s.cSelected := rfl
@[simp] theorem State.setChannel_monitor (ch : ChannelId) (c : Channel) :
    (s.setChannel ch c).monitor = s.monitor := rfl
@[simp] theorem State.setChannel_freeCount (ch : ChannelId) (c : Channel) :
    (s.setChannel ch c).freeCount = s.freeCount := rfl
@[simp] theorem State.setChannel_pending (ch : ChannelId) (c : Channel) :
    (s.setChannel ch c).pending = s.pending := rfl

/-! Records handed to the report queue (R117). -/

@[simp] theorem State.hand_ownAddress (records : List Record) : (s.hand records).ownAddress = s.ownAddress := rfl
@[simp] theorem State.hand_active (records : List Record) : (s.hand records).active = s.active := rfl
@[simp] theorem State.hand_generation (records : List Record) : (s.hand records).generation = s.generation := rfl
@[simp] theorem State.hand_session (records : List Record) : (s.hand records).session = s.session := rfl
@[simp] theorem State.hand_channels (records : List Record) : (s.hand records).channels = s.channels := rfl
@[simp] theorem State.hand_observer (records : List Record) : (s.hand records).observer = s.observer := rfl
@[simp] theorem State.hand_injectionCounter (records : List Record) :
    (s.hand records).injectionCounter = s.injectionCounter := rfl
@[simp] theorem State.hand_report (records : List Record) : (s.hand records).report = s.report.hand records := rfl
@[simp] theorem State.hand_cache (records : List Record) : (s.hand records).cache = s.cache := rfl
@[simp] theorem State.hand_responses (records : List Record) : (s.hand records).responses = s.responses := rfl
@[simp] theorem State.hand_dfq (records : List Record) : (s.hand records).dfq = s.dfq := rfl
@[simp] theorem State.hand_ufq (records : List Record) : (s.hand records).ufq = s.ufq := rfl
@[simp] theorem State.hand_cPort (records : List Record) : (s.hand records).cPort = s.cPort := rfl
@[simp] theorem State.hand_dPort (records : List Record) : (s.hand records).dPort = s.dPort := rfl
@[simp] theorem State.hand_misaddressed (records : List Record) :
    (s.hand records).misaddressed = s.misaddressed := rfl
@[simp] theorem State.hand_marker (records : List Record) : (s.hand records).marker = s.marker := rfl
@[simp] theorem State.hand_dSelected (records : List Record) : (s.hand records).dSelected = s.dSelected := rfl
@[simp] theorem State.hand_cSelected (records : List Record) : (s.hand records).cSelected = s.cSelected := rfl
@[simp] theorem State.hand_monitor (records : List Record) : (s.hand records).monitor = s.monitor := rfl
@[simp] theorem State.hand_freeCount (records : List Record) : (s.hand records).freeCount = s.freeCount := rfl
@[simp] theorem State.hand_pending (records : List Record) : (s.hand records).pending = s.pending := rfl

/-! A channel's context put back and its records handed (R45). -/

@[simp] theorem State.putChannel_ownAddress (ch : ChannelId) (r : Channel × List Record) :
    (s.putChannel ch r).ownAddress = s.ownAddress := rfl
@[simp] theorem State.putChannel_active (ch : ChannelId) (r : Channel × List Record) :
    (s.putChannel ch r).active = s.active := rfl
@[simp] theorem State.putChannel_generation (ch : ChannelId) (r : Channel × List Record) :
    (s.putChannel ch r).generation = s.generation := rfl
@[simp] theorem State.putChannel_session (ch : ChannelId) (r : Channel × List Record) :
    (s.putChannel ch r).session = s.session := rfl
@[simp] theorem State.putChannel_channels (ch : ChannelId) (r : Channel × List Record) :
    (s.putChannel ch r).channels = s.channels.set ch.val r.1 := rfl
@[simp] theorem State.putChannel_observer (ch : ChannelId) (r : Channel × List Record) :
    (s.putChannel ch r).observer = s.observer := rfl
@[simp] theorem State.putChannel_injectionCounter (ch : ChannelId) (r : Channel × List Record) :
    (s.putChannel ch r).injectionCounter = s.injectionCounter := rfl
@[simp] theorem State.putChannel_report (ch : ChannelId) (r : Channel × List Record) :
    (s.putChannel ch r).report = s.report.hand r.2 := rfl
@[simp] theorem State.putChannel_cache (ch : ChannelId) (r : Channel × List Record) :
    (s.putChannel ch r).cache = s.cache := rfl
@[simp] theorem State.putChannel_responses (ch : ChannelId) (r : Channel × List Record) :
    (s.putChannel ch r).responses = s.responses := rfl
@[simp] theorem State.putChannel_dfq (ch : ChannelId) (r : Channel × List Record) :
    (s.putChannel ch r).dfq = s.dfq := rfl
@[simp] theorem State.putChannel_ufq (ch : ChannelId) (r : Channel × List Record) :
    (s.putChannel ch r).ufq = s.ufq := rfl
@[simp] theorem State.putChannel_cPort (ch : ChannelId) (r : Channel × List Record) :
    (s.putChannel ch r).cPort = s.cPort := rfl
@[simp] theorem State.putChannel_dPort (ch : ChannelId) (r : Channel × List Record) :
    (s.putChannel ch r).dPort = s.dPort := rfl
@[simp] theorem State.putChannel_misaddressed (ch : ChannelId) (r : Channel × List Record) :
    (s.putChannel ch r).misaddressed = s.misaddressed := rfl
@[simp] theorem State.putChannel_marker (ch : ChannelId) (r : Channel × List Record) :
    (s.putChannel ch r).marker = s.marker := rfl
@[simp] theorem State.putChannel_dSelected (ch : ChannelId) (r : Channel × List Record) :
    (s.putChannel ch r).dSelected = s.dSelected := rfl
@[simp] theorem State.putChannel_cSelected (ch : ChannelId) (r : Channel × List Record) :
    (s.putChannel ch r).cSelected = s.cSelected := rfl
@[simp] theorem State.putChannel_monitor (ch : ChannelId) (r : Channel × List Record) :
    (s.putChannel ch r).monitor = s.monitor := rfl
@[simp] theorem State.putChannel_freeCount (ch : ChannelId) (r : Channel × List Record) :
    (s.putChannel ch r).freeCount = s.freeCount := rfl
@[simp] theorem State.putChannel_pending (ch : ChannelId) (r : Channel × List Record) :
    (s.putChannel ch r).pending = s.pending := rfl

/-! A frame entering transmission on the D-port (R172). -/

@[simp] theorem State.sendD_ownAddress (f : Frame) : (s.sendD f).ownAddress = s.ownAddress := rfl
@[simp] theorem State.sendD_active (f : Frame) : (s.sendD f).active = s.active := rfl
@[simp] theorem State.sendD_generation (f : Frame) : (s.sendD f).generation = s.generation := rfl
@[simp] theorem State.sendD_session (f : Frame) : (s.sendD f).session = s.session := rfl
@[simp] theorem State.sendD_channels (f : Frame) : (s.sendD f).channels = s.channels := rfl
@[simp] theorem State.sendD_observer (f : Frame) : (s.sendD f).observer = s.observer := rfl
@[simp] theorem State.sendD_injectionCounter (f : Frame) : (s.sendD f).injectionCounter = s.injectionCounter := rfl
@[simp] theorem State.sendD_report (f : Frame) : (s.sendD f).report = s.report := rfl
@[simp] theorem State.sendD_cache (f : Frame) : (s.sendD f).cache = s.cache := rfl
@[simp] theorem State.sendD_responses (f : Frame) : (s.sendD f).responses = s.responses := rfl
@[simp] theorem State.sendD_dfq (f : Frame) : (s.sendD f).dfq = s.dfq := rfl
@[simp] theorem State.sendD_ufq (f : Frame) : (s.sendD f).ufq = s.ufq := rfl
@[simp] theorem State.sendD_cPort (f : Frame) : (s.sendD f).cPort = s.cPort := rfl
@[simp] theorem State.sendD_dPort (f : Frame) : (s.sendD f).dPort = { s.dPort with sending := some f } := rfl
@[simp] theorem State.sendD_misaddressed (f : Frame) : (s.sendD f).misaddressed = s.misaddressed := rfl
@[simp] theorem State.sendD_marker (f : Frame) : (s.sendD f).marker = s.marker := rfl
@[simp] theorem State.sendD_dSelected (f : Frame) : (s.sendD f).dSelected = s.dSelected := rfl
@[simp] theorem State.sendD_cSelected (f : Frame) : (s.sendD f).cSelected = s.cSelected := rfl
@[simp] theorem State.sendD_monitor (f : Frame) : (s.sendD f).monitor = s.monitor := rfl
@[simp] theorem State.sendD_freeCount (f : Frame) : (s.sendD f).freeCount = s.freeCount := rfl
@[simp] theorem State.sendD_pending (f : Frame) : (s.sendD f).pending = s.pending := rfl

/-! A frame entering transmission on the C-port (R172). -/

@[simp] theorem State.sendC_ownAddress (f : Frame) : (s.sendC f).ownAddress = s.ownAddress := rfl
@[simp] theorem State.sendC_active (f : Frame) : (s.sendC f).active = s.active := rfl
@[simp] theorem State.sendC_generation (f : Frame) : (s.sendC f).generation = s.generation := rfl
@[simp] theorem State.sendC_session (f : Frame) : (s.sendC f).session = s.session := rfl
@[simp] theorem State.sendC_channels (f : Frame) : (s.sendC f).channels = s.channels := rfl
@[simp] theorem State.sendC_observer (f : Frame) : (s.sendC f).observer = s.observer := rfl
@[simp] theorem State.sendC_injectionCounter (f : Frame) : (s.sendC f).injectionCounter = s.injectionCounter := rfl
@[simp] theorem State.sendC_report (f : Frame) : (s.sendC f).report = s.report := rfl
@[simp] theorem State.sendC_cache (f : Frame) : (s.sendC f).cache = s.cache := rfl
@[simp] theorem State.sendC_responses (f : Frame) : (s.sendC f).responses = s.responses := rfl
@[simp] theorem State.sendC_dfq (f : Frame) : (s.sendC f).dfq = s.dfq := rfl
@[simp] theorem State.sendC_ufq (f : Frame) : (s.sendC f).ufq = s.ufq := rfl
@[simp] theorem State.sendC_cPort (f : Frame) : (s.sendC f).cPort = { s.cPort with sending := some f } := rfl
@[simp] theorem State.sendC_dPort (f : Frame) : (s.sendC f).dPort = s.dPort := rfl
@[simp] theorem State.sendC_misaddressed (f : Frame) : (s.sendC f).misaddressed = s.misaddressed := rfl
@[simp] theorem State.sendC_marker (f : Frame) : (s.sendC f).marker = s.marker := rfl
@[simp] theorem State.sendC_dSelected (f : Frame) : (s.sendC f).dSelected = s.dSelected := rfl
@[simp] theorem State.sendC_cSelected (f : Frame) : (s.sendC f).cSelected = s.cSelected := rfl
@[simp] theorem State.sendC_monitor (f : Frame) : (s.sendC f).monitor = s.monitor := rfl
@[simp] theorem State.sendC_freeCount (f : Frame) : (s.sendC f).freeCount = s.freeCount := rfl
@[simp] theorem State.sendC_pending (f : Frame) : (s.sendC f).pending = s.pending := rfl

/-! The received counter of the C-port (R164). -/

@[simp] theorem State.countReceivedC_ownAddress : s.countReceivedC.ownAddress = s.ownAddress := rfl
@[simp] theorem State.countReceivedC_active : s.countReceivedC.active = s.active := rfl
@[simp] theorem State.countReceivedC_generation : s.countReceivedC.generation = s.generation := rfl
@[simp] theorem State.countReceivedC_session : s.countReceivedC.session = s.session := rfl
@[simp] theorem State.countReceivedC_channels : s.countReceivedC.channels = s.channels := rfl
@[simp] theorem State.countReceivedC_observer : s.countReceivedC.observer = s.observer := rfl
@[simp] theorem State.countReceivedC_injectionCounter : s.countReceivedC.injectionCounter = s.injectionCounter := rfl
@[simp] theorem State.countReceivedC_report : s.countReceivedC.report = s.report := rfl
@[simp] theorem State.countReceivedC_cache : s.countReceivedC.cache = s.cache := rfl
@[simp] theorem State.countReceivedC_responses : s.countReceivedC.responses = s.responses := rfl
@[simp] theorem State.countReceivedC_dfq : s.countReceivedC.dfq = s.dfq := rfl
@[simp] theorem State.countReceivedC_ufq : s.countReceivedC.ufq = s.ufq := rfl
@[simp] theorem State.countReceivedC_cPort :
    s.countReceivedC.cPort = { s.cPort with received := s.cPort.received + 1 } := rfl
@[simp] theorem State.countReceivedC_dPort : s.countReceivedC.dPort = s.dPort := rfl
@[simp] theorem State.countReceivedC_misaddressed : s.countReceivedC.misaddressed = s.misaddressed := rfl
@[simp] theorem State.countReceivedC_marker : s.countReceivedC.marker = s.marker := rfl
@[simp] theorem State.countReceivedC_dSelected : s.countReceivedC.dSelected = s.dSelected := rfl
@[simp] theorem State.countReceivedC_cSelected : s.countReceivedC.cSelected = s.cSelected := rfl
@[simp] theorem State.countReceivedC_monitor : s.countReceivedC.monitor = s.monitor := rfl
@[simp] theorem State.countReceivedC_freeCount : s.countReceivedC.freeCount = s.freeCount := rfl
@[simp] theorem State.countReceivedC_pending : s.countReceivedC.pending = s.pending := rfl

/-! The received counter of the D-port (R164). -/

@[simp] theorem State.countReceivedD_ownAddress : s.countReceivedD.ownAddress = s.ownAddress := rfl
@[simp] theorem State.countReceivedD_active : s.countReceivedD.active = s.active := rfl
@[simp] theorem State.countReceivedD_generation : s.countReceivedD.generation = s.generation := rfl
@[simp] theorem State.countReceivedD_session : s.countReceivedD.session = s.session := rfl
@[simp] theorem State.countReceivedD_channels : s.countReceivedD.channels = s.channels := rfl
@[simp] theorem State.countReceivedD_observer : s.countReceivedD.observer = s.observer := rfl
@[simp] theorem State.countReceivedD_injectionCounter : s.countReceivedD.injectionCounter = s.injectionCounter := rfl
@[simp] theorem State.countReceivedD_report : s.countReceivedD.report = s.report := rfl
@[simp] theorem State.countReceivedD_cache : s.countReceivedD.cache = s.cache := rfl
@[simp] theorem State.countReceivedD_responses : s.countReceivedD.responses = s.responses := rfl
@[simp] theorem State.countReceivedD_dfq : s.countReceivedD.dfq = s.dfq := rfl
@[simp] theorem State.countReceivedD_ufq : s.countReceivedD.ufq = s.ufq := rfl
@[simp] theorem State.countReceivedD_cPort : s.countReceivedD.cPort = s.cPort := rfl
@[simp] theorem State.countReceivedD_dPort :
    s.countReceivedD.dPort = { s.dPort with received := s.dPort.received + 1 } := rfl
@[simp] theorem State.countReceivedD_misaddressed : s.countReceivedD.misaddressed = s.misaddressed := rfl
@[simp] theorem State.countReceivedD_marker : s.countReceivedD.marker = s.marker := rfl
@[simp] theorem State.countReceivedD_dSelected : s.countReceivedD.dSelected = s.dSelected := rfl
@[simp] theorem State.countReceivedD_cSelected : s.countReceivedD.cSelected = s.cSelected := rfl
@[simp] theorem State.countReceivedD_monitor : s.countReceivedD.monitor = s.monitor := rfl
@[simp] theorem State.countReceivedD_freeCount : s.countReceivedD.freeCount = s.freeCount := rfl
@[simp] theorem State.countReceivedD_pending : s.countReceivedD.pending = s.pending := rfl

/-! The holder's SHADOW replaced (R12). -/

@[simp] theorem State.withShadow_ownAddress (session : Session) (shadow : Bank) :
    (s.withShadow session shadow).ownAddress = s.ownAddress := rfl
@[simp] theorem State.withShadow_active (session : Session) (shadow : Bank) :
    (s.withShadow session shadow).active = s.active := rfl
@[simp] theorem State.withShadow_generation (session : Session) (shadow : Bank) :
    (s.withShadow session shadow).generation = s.generation := rfl
@[simp] theorem State.withShadow_session (session : Session) (shadow : Bank) :
    (s.withShadow session shadow).session = some { session with shadow } := rfl
@[simp] theorem State.withShadow_channels (session : Session) (shadow : Bank) :
    (s.withShadow session shadow).channels = s.channels := rfl
@[simp] theorem State.withShadow_observer (session : Session) (shadow : Bank) :
    (s.withShadow session shadow).observer = s.observer := rfl
@[simp] theorem State.withShadow_injectionCounter (session : Session) (shadow : Bank) :
    (s.withShadow session shadow).injectionCounter = s.injectionCounter := rfl
@[simp] theorem State.withShadow_report (session : Session) (shadow : Bank) :
    (s.withShadow session shadow).report = s.report := rfl
@[simp] theorem State.withShadow_cache (session : Session) (shadow : Bank) :
    (s.withShadow session shadow).cache = s.cache := rfl
@[simp] theorem State.withShadow_responses (session : Session) (shadow : Bank) :
    (s.withShadow session shadow).responses = s.responses := rfl
@[simp] theorem State.withShadow_dfq (session : Session) (shadow : Bank) :
    (s.withShadow session shadow).dfq = s.dfq := rfl
@[simp] theorem State.withShadow_ufq (session : Session) (shadow : Bank) :
    (s.withShadow session shadow).ufq = s.ufq := rfl
@[simp] theorem State.withShadow_cPort (session : Session) (shadow : Bank) :
    (s.withShadow session shadow).cPort = s.cPort := rfl
@[simp] theorem State.withShadow_dPort (session : Session) (shadow : Bank) :
    (s.withShadow session shadow).dPort = s.dPort := rfl
@[simp] theorem State.withShadow_misaddressed (session : Session) (shadow : Bank) :
    (s.withShadow session shadow).misaddressed = s.misaddressed := rfl
@[simp] theorem State.withShadow_marker (session : Session) (shadow : Bank) :
    (s.withShadow session shadow).marker = s.marker := rfl
@[simp] theorem State.withShadow_dSelected (session : Session) (shadow : Bank) :
    (s.withShadow session shadow).dSelected = s.dSelected := rfl
@[simp] theorem State.withShadow_cSelected (session : Session) (shadow : Bank) :
    (s.withShadow session shadow).cSelected = s.cSelected := rfl
@[simp] theorem State.withShadow_monitor (session : Session) (shadow : Bank) :
    (s.withShadow session shadow).monitor = s.monitor := rfl
@[simp] theorem State.withShadow_freeCount (session : Session) (shadow : Bank) :
    (s.withShadow session shadow).freeCount = s.freeCount := rfl
@[simp] theorem State.withShadow_pending (session : Session) (shadow : Bank) :
    (s.withShadow session shadow).pending = s.pending := rfl

/-! An injected RELEASE at a channel (R94). -/

@[simp] theorem State.applyInjection_ownAddress (ch : ChannelId) :
    (s.applyInjection ch).ownAddress = s.ownAddress := rfl
@[simp] theorem State.applyInjection_active (ch : ChannelId) : (s.applyInjection ch).active = s.active := rfl
@[simp] theorem State.applyInjection_generation (ch : ChannelId) :
    (s.applyInjection ch).generation = s.generation := rfl
@[simp] theorem State.applyInjection_session (ch : ChannelId) : (s.applyInjection ch).session = s.session := rfl
@[simp] theorem State.applyInjection_channels (ch : ChannelId) :
    (s.applyInjection ch).channels = s.channels.set ch.val (s.channel ch).released := rfl
@[simp] theorem State.applyInjection_observer (ch : ChannelId) : (s.applyInjection ch).observer = s.observer := rfl
@[simp] theorem State.applyInjection_injectionCounter (ch : ChannelId) :
    (s.applyInjection ch).injectionCounter = s.injectionCounter := rfl
@[simp] theorem State.applyInjection_report (ch : ChannelId) : (s.applyInjection ch).report = s.report := rfl
@[simp] theorem State.applyInjection_cache (ch : ChannelId) : (s.applyInjection ch).cache = s.cache := rfl
@[simp] theorem State.applyInjection_responses (ch : ChannelId) : (s.applyInjection ch).responses = s.responses := rfl
@[simp] theorem State.applyInjection_dfq (ch : ChannelId) : (s.applyInjection ch).dfq = s.dfq := rfl
@[simp] theorem State.applyInjection_ufq (ch : ChannelId) : (s.applyInjection ch).ufq = s.ufq := rfl
@[simp] theorem State.applyInjection_cPort (ch : ChannelId) : (s.applyInjection ch).cPort = s.cPort := rfl
@[simp] theorem State.applyInjection_dPort (ch : ChannelId) : (s.applyInjection ch).dPort = s.dPort := rfl
@[simp] theorem State.applyInjection_misaddressed (ch : ChannelId) :
    (s.applyInjection ch).misaddressed = s.misaddressed := rfl
@[simp] theorem State.applyInjection_marker (ch : ChannelId) : (s.applyInjection ch).marker = s.marker := rfl
@[simp] theorem State.applyInjection_dSelected (ch : ChannelId) : (s.applyInjection ch).dSelected = s.dSelected := rfl
@[simp] theorem State.applyInjection_cSelected (ch : ChannelId) : (s.applyInjection ch).cSelected = s.cSelected := rfl
@[simp] theorem State.applyInjection_monitor (ch : ChannelId) : (s.applyInjection ch).monitor = s.monitor := rfl
@[simp] theorem State.applyInjection_freeCount (ch : ChannelId) : (s.applyInjection ch).freeCount = s.freeCount := rfl
@[simp] theorem State.applyInjection_pending (ch : ChannelId) : (s.applyInjection ch).pending = s.pending := rfl

/-! The retransmit expiry (R127, R128). -/

@[simp] theorem State.expireRetransmit_ownAddress : s.expireRetransmit.ownAddress = s.ownAddress := rfl
@[simp] theorem State.expireRetransmit_active : s.expireRetransmit.active = s.active := rfl
@[simp] theorem State.expireRetransmit_generation : s.expireRetransmit.generation = s.generation := rfl
@[simp] theorem State.expireRetransmit_session : s.expireRetransmit.session = s.session := rfl
@[simp] theorem State.expireRetransmit_channels : s.expireRetransmit.channels = s.channels := rfl
@[simp] theorem State.expireRetransmit_observer : s.expireRetransmit.observer = s.observer := rfl
@[simp] theorem State.expireRetransmit_injectionCounter :
    s.expireRetransmit.injectionCounter = s.injectionCounter := rfl
@[simp] theorem State.expireRetransmit_report :
    s.expireRetransmit.report = s.report.expire s.active.policy.retransmitMs := rfl
@[simp] theorem State.expireRetransmit_cache : s.expireRetransmit.cache = s.cache := rfl
@[simp] theorem State.expireRetransmit_responses : s.expireRetransmit.responses = s.responses := rfl
@[simp] theorem State.expireRetransmit_dfq : s.expireRetransmit.dfq = s.dfq := rfl
@[simp] theorem State.expireRetransmit_ufq : s.expireRetransmit.ufq = s.ufq := rfl
@[simp] theorem State.expireRetransmit_cPort : s.expireRetransmit.cPort = s.cPort := rfl
@[simp] theorem State.expireRetransmit_dPort : s.expireRetransmit.dPort = s.dPort := rfl
@[simp] theorem State.expireRetransmit_misaddressed : s.expireRetransmit.misaddressed = s.misaddressed := rfl
@[simp] theorem State.expireRetransmit_marker : s.expireRetransmit.marker = s.marker := rfl
@[simp] theorem State.expireRetransmit_dSelected : s.expireRetransmit.dSelected = s.dSelected := rfl
@[simp] theorem State.expireRetransmit_cSelected : s.expireRetransmit.cSelected = s.cSelected := rfl
@[simp] theorem State.expireRetransmit_monitor : s.expireRetransmit.monitor = s.monitor := rfl
@[simp] theorem State.expireRetransmit_freeCount : s.expireRetransmit.freeCount = s.freeCount := rfl
@[simp] theorem State.expireRetransmit_pending : s.expireRetransmit.pending = s.pending := rfl

/-! The selections as the state holds them (R168, R170). -/

@[simp] theorem State.select_ownAddress : s.select.ownAddress = s.ownAddress := rfl
@[simp] theorem State.select_active : s.select.active = s.active := rfl
@[simp] theorem State.select_generation : s.select.generation = s.generation := rfl
@[simp] theorem State.select_session : s.select.session = s.session := rfl
@[simp] theorem State.select_channels : s.select.channels = s.channels := rfl
@[simp] theorem State.select_observer : s.select.observer = s.observer := rfl
@[simp] theorem State.select_injectionCounter : s.select.injectionCounter = s.injectionCounter := rfl
@[simp] theorem State.select_report : s.select.report = s.report := rfl
@[simp] theorem State.select_cache : s.select.cache = s.cache := rfl
@[simp] theorem State.select_responses : s.select.responses = s.responses := rfl
@[simp] theorem State.select_dfq : s.select.dfq = s.dfq := rfl
@[simp] theorem State.select_ufq : s.select.ufq = s.ufq := rfl
@[simp] theorem State.select_cPort : s.select.cPort = s.cPort := rfl
@[simp] theorem State.select_dPort : s.select.dPort = s.dPort := rfl
@[simp] theorem State.select_misaddressed : s.select.misaddressed = s.misaddressed := rfl
@[simp] theorem State.select_marker : s.select.marker = s.marker := rfl
@[simp] theorem State.select_monitor : s.select.monitor = s.monitor := rfl
@[simp] theorem State.select_freeCount : s.select.freeCount = s.freeCount := rfl
@[simp] theorem State.select_pending : s.select.pending = s.pending := rfl
@[simp] theorem State.select_dSelected : s.select.dSelected = s.dStanding := rfl
@[simp] theorem State.select_cSelected : s.select.cSelected = s.cStanding := rfl
@[simp] theorem State.channel_select (ch : ChannelId) : s.select.channel ch = s.channel ch := rfl

/-! One housekeeping tick (R179). -/

@[simp] theorem State.tick_ownAddress : s.tick.ownAddress = s.ownAddress := rfl
@[simp] theorem State.tick_active : s.tick.active = s.active := rfl
@[simp] theorem State.tick_generation : s.tick.generation = s.generation := rfl
@[simp] theorem State.tick_channels : s.tick.channels = s.channels := rfl
@[simp] theorem State.tick_injectionCounter : s.tick.injectionCounter = s.injectionCounter := rfl
@[simp] theorem State.tick_cache : s.tick.cache = s.cache := rfl
@[simp] theorem State.tick_responses : s.tick.responses = s.responses := rfl
@[simp] theorem State.tick_dfq : s.tick.dfq = s.dfq := rfl
@[simp] theorem State.tick_ufq : s.tick.ufq = s.ufq := rfl
@[simp] theorem State.tick_cPort : s.tick.cPort = s.cPort := rfl
@[simp] theorem State.tick_dPort : s.tick.dPort = s.dPort := rfl
@[simp] theorem State.tick_misaddressed : s.tick.misaddressed = s.misaddressed := rfl
@[simp] theorem State.tick_marker : s.tick.marker = s.marker := rfl
@[simp] theorem State.tick_monitor : s.tick.monitor = s.monitor := rfl
@[simp] theorem State.tick_freeCount : s.tick.freeCount = s.freeCount := rfl
@[simp] theorem State.tick_pending : s.tick.pending = s.pending := rfl
@[simp] theorem State.tick_dSelected : s.tick.dSelected = s.dSelected := rfl
@[simp] theorem State.tick_cSelected : s.tick.cSelected = s.cSelected := rfl
@[simp] theorem State.tick_observer :
    s.tick.observer = { s.observer with silenceTimer := s.observer.silenceTimer.map (· - 1) } := rfl
@[simp] theorem State.tick_report :
    s.tick.report = { s.report with retransmitTimer := s.report.retransmitTimer.map (· - 1) } := rfl
@[simp] theorem State.tick_session :
    s.tick.session = s.session.map fun session => { session with lease := session.lease - 1 } := rfl

end Sys2Proof.Machine
end

