-- ==== Sys2Proof/Laws/Channels.lean ====
section
/-! SUPPORT. The channel contexts: reads after writes, and what a pass over the channels does. -/

namespace Sys2Proof.Machine

variable (s : State)

theorem State.channel_setChannel (ch d : ChannelId) (c : Channel) :
    (s.setChannel ch c).channel d = if d = ch then c else s.channel d := by
  rcases eq_or_ne d ch with rfl | h
  · simp [State.channel, State.setChannel]
  · have : ch.val ≠ d.val := fun e => h (Fin.ext e.symm)
    simp [State.channel, State.setChannel, h, Vector.getElem_set_ne, this]

@[simp] theorem State.channel_setChannel_same (ch : ChannelId) (c : Channel) : (s.setChannel ch c).channel ch = c := by
  simp [State.channel_setChannel]

@[simp] theorem State.channel_hand (records : List Record) (ch : ChannelId) :
    (s.hand records).channel ch = s.channel ch := rfl

theorem State.channel_putChannel (ch d : ChannelId) (r : Channel × List Record) :
    (s.putChannel ch r).channel d = if d = ch then r.1 else s.channel d :=
  State.channel_setChannel s ch d r.1

@[simp] theorem mem_allChannels (ch : ChannelId) : ch ∈ allChannels := by
  revert ch; decide

theorem nodup_allChannels : allChannels.Nodup := by decide

theorem length_allChannels : allChannels.length = 16 := rfl

/-- A pass that puts every channel of a list back, each context from the channel's own, is one replacement of the
contexts and one sequence of groups handed. -/
theorem foldl_putChannel (F : ChannelId → Channel → Channel × List Record) (l : List ChannelId) (hl : l.Nodup) :
    ∀ s : State, ∃ channels : Vector Channel 16,
      l.foldl (fun s ch => s.putChannel ch (F ch (s.channel ch))) s =
        { s with channels, report := l.foldl (fun q ch => q.hand (F ch (s.channel ch)).2) s.report } ∧
      ∀ ch : ChannelId, channels[ch.val] = if ch ∈ l then (F ch (s.channel ch)).1 else s.channel ch := by
  induction l with
  | nil => intro s; exact ⟨s.channels, rfl, fun ch => by simp [State.channel]⟩
  | cons a l ih =>
    intro s
    obtain ⟨ha, hl⟩ := List.nodup_cons.1 hl
    obtain ⟨channels, heq, hch⟩ := ih hl (s.putChannel a (F a (s.channel a)))
    have hne : ∀ ch ∈ l, (s.putChannel a (F a (s.channel a))).channel ch = s.channel ch := by
      intro ch hc
      rw [State.channel_putChannel, if_neg]
      rintro rfl; exact ha hc
    refine ⟨channels, ?_, ?_⟩
    · rw [List.foldl_cons, List.foldl_cons, heq]
      have hfold : l.foldl (fun q ch =>
            q.hand (F ch ((s.putChannel a (F a (s.channel a))).channel ch)).2) (s.report.hand (F a (s.channel a)).2) =
          l.foldl (fun q ch => q.hand (F ch (s.channel ch)).2) (s.report.hand (F a (s.channel a)).2) :=
        List.foldl_ext _ _ _ fun q ch hc => by rw [hne ch hc]
      rw [State.putChannel_report, hfold]
      rfl
    · intro ch
      rw [hch ch]
      by_cases hm : ch ∈ l
      · simp [hm, hne ch hm]
      · rcases eq_or_ne ch a with rfl | h
        · simp [hm, State.channel_putChannel]
        · simp [hm, h, State.channel_putChannel]

/-- The same over all channels. -/
theorem foldl_putChannel_all (F : ChannelId → Channel → Channel × List Record) :
    ∃ channels : Vector Channel 16,
      allChannels.foldl (fun s ch => s.putChannel ch (F ch (s.channel ch))) s =
        { s with channels, report := allChannels.foldl (fun q ch => q.hand (F ch (s.channel ch)).2) s.report } ∧
      ∀ ch : ChannelId, channels[ch.val] = (F ch (s.channel ch)).1 := by
  obtain ⟨channels, heq, hch⟩ := foldl_putChannel F allChannels nodup_allChannels s
  exact ⟨channels, heq, fun ch => by rw [hch ch, if_pos (mem_allChannels ch)]⟩

/-- What a void does: every context by itself, their records in channel order, and nothing else (R79). -/
theorem State.voidEpisodes_spec (outcome : EpisodeOutcome) : ∃ channels : Vector Channel 16,
    s.voidEpisodes outcome =
      { s with
        channels
        report := allChannels.foldl (fun q ch => q.hand ((s.channel ch).closeOutside ch outcome).2) s.report } ∧
    ∀ ch : ChannelId, channels[ch.val] = ((s.channel ch).closeOutside ch outcome).1 :=
  foldl_putChannel_all s fun ch c => c.closeOutside ch outcome

/-- What the channel tracker does with an accepted frame: every context by itself, their records in channel order, and
nothing else (R45). -/
theorem State.trackFrame_spec (m : Sample) : ∃ channels : Vector Channel 16,
    s.trackFrame m =
      { s with
        channels
        report :=
          allChannels.foldl (fun q ch => q.hand ((s.channel ch).handleFrame ch m.index (m.entry? ch)).2) s.report } ∧
    ∀ ch : ChannelId, channels[ch.val] = ((s.channel ch).handleFrame ch m.index (m.entry? ch)).1 :=
  foldl_putChannel_all s fun ch c => c.handleFrame ch m.index (m.entry? ch)

/-- What the silence of the driver does (R103). -/
theorem State.fallSilent_spec : ∃ channels : Vector Channel 16,
    s.fallSilent =
      { s with
        observer := { s.observer with activity := .silent, reference := none, silenceTimer := none }
        channels
        report :=
          (allChannels.foldl (fun q ch => q.hand ((s.channel ch).closeOutside ch .voidSilent).2) s.report).hand
            [.driverSilent] } ∧
    ∀ ch : ChannelId, channels[ch.val] = ((s.channel ch).closeOutside ch .voidSilent).1 := by
  obtain ⟨channels, heq, hch⟩ := State.voidEpisodes_spec
    { s with observer := { s.observer with activity := .silent, silenceTimer := none } } .voidSilent
  refine ⟨channels, ?_, hch⟩
  unfold State.fallSilent
  simp only [heq]
  rfl

/-- A pass of injected RELEASEs over some channels (R94). -/
theorem foldl_applyInjection (l : List ChannelId) : ∀ s : State, ∃ channels : Vector Channel 16,
    l.foldl State.applyInjection s = { s with channels } ∧
      ∀ ch : ChannelId, channels[ch.val] = if ch ∈ l then (s.channel ch).released else s.channel ch := by
  induction l with
  | nil => intro s; exact ⟨s.channels, rfl, fun ch => by simp [State.channel]⟩
  | cons a l ih =>
    intro s
    obtain ⟨channels, heq, hch⟩ := ih (s.applyInjection a)
    refine ⟨channels, heq, fun ch => ?_⟩
    rw [hch ch]
    have hs : (s.applyInjection a).channel ch = if ch = a then (s.channel a).released else s.channel ch :=
      State.channel_setChannel s a ch _
    rcases eq_or_ne ch a with rfl | h
    · simp [hs, Channel.released]
    · simp [hs, h]

/-- What warm restart does at the channels (R80). -/
theorem State.restartChannels_spec : ∃ channels : Vector Channel 16,
    s.restartChannels = { s with channels } ∧ ∀ ch : ChannelId, channels[ch.val] = (s.channel ch).restart := by
  obtain ⟨channels, heq, hch⟩ := foldl_putChannel_all s fun _ c => (c.restart, [])
  refine ⟨channels, ?_, hch⟩
  have hr : ∀ (l : List ChannelId) (q : ReportQueue), l.foldl (fun q _ => q.hand []) q = q := by
    intro l; induction l with
    | nil => intro q; rfl
    | cons a l ih => intro q; exact ih q
  rw [hr] at heq
  exact heq

/-! One channel's context. -/

variable (c : Channel) (ch : ChannelId)

theorem Channel.closeOutside_none (outcome : EpisodeOutcome) (h : c.tracking = none) :
    c.closeOutside ch outcome = (c, []) := by simp [Channel.closeOutside, h]

theorem Channel.tracking_some {sn : Snapshot} {e : Episode} (hs : c.snapshot = some sn) (he : c.episode = some e) :
    c.tracking = some (sn, e) := by simp [Channel.tracking, hs, he]

/-- A closure from outside with a neutral outcome: the neutral counter and one VERDICT, with no lock decision (R67,
R77, R78, R79). -/
theorem Channel.closeOutside_neutral (outcome : EpisodeOutcome) (h : outcome.outcomeClass = .neutral) (sn : Snapshot)
    (e : Episode) (ht : c.tracking = some (sn, e)) :
    c.closeOutside ch outcome =
      ({ c with neutral := c.neutral + 1, episode := none },
        [.verdict (verdictOf { c with neutral := c.neutral + 1 } ch sn e outcome none)]) := by
  simp [Channel.closeOutside, ht, Channel.close, h, Channel.account]

end Sys2Proof.Machine
end

