-- ==== Sys2Proof/Laws/ChannelSound.lean ====
section
/-! SUPPORT. Every operation on a channel context keeps it sound and its counters balanced. -/

namespace Sys2Proof.Machine

variable (c : Channel) (ch : ChannelId)

/-- The two outcomes of the lock decision (R70). -/
theorem Channel.decideLock_cases (sn : Snapshot) :
    (c.locks sn = true ∧ c.decideLock ch sn =
      ({ c with disposition := .locked, pendingInjection := c.pendingInjection || c.energized },
        [.locked ch c.failCount sn.index sn.generation])) ∨
    (c.locks sn = false ∧ c.decideLock ch sn = (c, [])) := by
  unfold Channel.decideLock
  cases h : c.locks sn <;> simp

theorem Channel.decideLock_sound (sn : Snapshot) (he : c.episode = none) (h : c.Sound) :
    (c.decideLock ch sn).1.Sound := by
  rcases c.decideLock_cases ch sn with ⟨_, h'⟩ | ⟨_, h'⟩ <;> rw [h']
  · obtain ⟨_, h2, h3, h4⟩ := h
    refine ⟨by simp [he], ?_, h3, h4⟩
    intro hp
    rcases Bool.or_eq_true _ _ ▸ hp with hp | hp
    · exact ⟨(h2 hp).1, by simp⟩
    · exact ⟨hp, by simp⟩
  · exact h

/-- The counters of a closed episode's class (R67, R68, R69). -/
theorem Channel.account_fields (k : OutcomeClass) :
    (c.account k).disposition = c.disposition ∧ (c.account k).energized = c.energized ∧
      (c.account k).pendingInjection = c.pendingInjection ∧ (c.account k).snapshot = c.snapshot ∧
      (c.account k).episode = c.episode ∧ (c.account k).opened = c.opened ∧ (c.account k).trips = c.trips ∧
      (c.account k).failCount =
        (match k with | .pass => 0 | .fail => min 15 (c.failCount + 1) | .neutral => c.failCount) ∧
      (c.account k).passed + (c.account k).failed + (c.account k).neutral = c.passed + c.failed + c.neutral + 1 := by
  cases k <;> simp [Channel.account] <;> ring

/-- A closure leaves no episode, keeps the energized flag and the snapshot, and counts one class (R67). -/
theorem Channel.close_fields (sn : Snapshot) (e : Episode) (outcome : EpisodeOutcome) (r : Option Nat) :
    (c.close ch sn e outcome r).1.episode = none ∧ (c.close ch sn e outcome r).1.energized = c.energized ∧
      (c.close ch sn e outcome r).1.snapshot = c.snapshot ∧ (c.close ch sn e outcome r).1.opened = c.opened ∧
      (c.close ch sn e outcome r).1.passed + (c.close ch sn e outcome r).1.failed +
        (c.close ch sn e outcome r).1.neutral = c.passed + c.failed + c.neutral + 1 := by
  obtain ⟨h1, h2, h3, h4, h5, h6, h7, h8, h9⟩ := c.account_fields outcome.outcomeClass
  unfold Channel.close
  simp only
  split
  · rcases (c.account outcome.outcomeClass).decideLock_cases ch sn with ⟨_, h'⟩ | ⟨_, h'⟩ <;> rw [h'] <;>
      simp [h2, h4, h6, h9]
  · simp [h2, h4, h6, h9]

theorem Channel.close_sound (sn : Snapshot) (e : Episode) (outcome : EpisodeOutcome) (r : Option Nat)
    (h : { c with episode := none }.Sound) : (c.close ch sn e outcome r).1.Sound := by
  obtain ⟨h1, h2, h3, h4, h5, h6, h7, h8, h9⟩ := c.account_fields outcome.outcomeClass
  obtain ⟨_, s2, s3, s4⟩ := h
  simp only at s2 s3 s4
  have hs : (Channel.Sound { c.account outcome.outcomeClass with episode := none }) := by
    refine ⟨by simp, ?_, ?_, ?_⟩
    · simpa [h1, h2, h3] using s2
    · simpa [h4, h2] using s3
    · simp only [h8]; cases outcome.outcomeClass <;> (dsimp only; omega)
  unfold Channel.close
  simp only
  split
  · have hd := Channel.decideLock_sound { c.account outcome.outcomeClass with episode := none } ch sn rfl hs
    rcases (c.account outcome.outcomeClass).decideLock_cases ch sn with ⟨hl, h'⟩ | ⟨hl, h'⟩
    · have hl' : Channel.locks { c.account outcome.outcomeClass with episode := none } sn = true := hl
      rw [h']
      simp only [Channel.decideLock, hl', if_true] at hd
      exact hd
    · rw [h']; exact hs
  · exact hs

theorem Channel.close_balanced (sn : Snapshot) (e : Episode) (outcome : EpisodeOutcome) (r : Option Nat)
    (h : c.Balanced) (he : c.episode.isSome) : (c.close ch sn e outcome r).1.Balanced := by
  obtain ⟨h1, h2, h3, h4, h5⟩ := c.close_fields ch sn e outcome r
  simp only [Channel.Balanced, he, if_true] at h
  simp only [Channel.Balanced, h1, h4, h]
  simp [h5]

/-- Clearing the episode keeps a context sound. -/
theorem Channel.Sound.clearEpisode {c : Channel} (h : c.Sound) : Channel.Sound { c with episode := none } :=
  ⟨by simp, h.2.1, h.2.2.1, h.2.2.2⟩

/-- In a sound context an open episode is tracked. -/
theorem Channel.Sound.tracking {c : Channel} (h : c.Sound) (he : c.episode.isSome) :
    ∃ sn e, c.snapshot = some sn ∧ c.episode = some e ∧ c.tracking = some (sn, e) := by
  obtain ⟨sn, hs⟩ := Option.isSome_iff_exists.1 (h.1 he).2.1
  obtain ⟨e, he⟩ := Option.isSome_iff_exists.1 he
  exact ⟨sn, e, hs, he, Channel.tracking_some c hs he⟩

/-- In a sound context without a tracked episode there is no episode. -/
theorem Channel.Sound.no_episode {c : Channel} (h : c.Sound) (ht : c.tracking = none) : c.episode = none := by
  by_contra hn
  obtain ⟨sn, e, _, _, hs⟩ := h.tracking (Option.isSome_iff_ne_none.2 hn)
  simp [hs] at ht

theorem Channel.tracking_eq_some {c : Channel} {sn : Snapshot} {e : Episode} (h : c.tracking = some (sn, e)) :
    c.snapshot = some sn ∧ c.episode = some e := by
  unfold Channel.tracking at h
  split at h <;> simp_all

/-- A closure from outside keeps a context sound and balanced, leaves no episode, and keeps the energized flag and the
snapshot (R67). -/
theorem Channel.closeOutside_sound (outcome : EpisodeOutcome) (h : c.Sound) (hb : c.Balanced) :
    (c.closeOutside ch outcome).1.Sound ∧ (c.closeOutside ch outcome).1.Balanced ∧
      (c.closeOutside ch outcome).1.episode = none ∧ (c.closeOutside ch outcome).1.energized = c.energized ∧
      (c.closeOutside ch outcome).1.snapshot = c.snapshot := by
  cases ht : c.tracking with
  | none =>
    rw [Channel.closeOutside_none c ch outcome ht]
    exact ⟨h, hb, h.no_episode ht, rfl, rfl⟩
  | some p =>
    obtain ⟨sn, e⟩ := p
    obtain ⟨hs, he⟩ := Channel.tracking_eq_some ht
    have hc : c.closeOutside ch outcome = c.close ch sn e outcome none := by simp [Channel.closeOutside, ht]
    rw [hc]
    obtain ⟨h1, h2, h3, _, _⟩ := c.close_fields ch sn e outcome none
    exact ⟨c.close_sound ch sn e outcome none h.clearEpisode, c.close_balanced ch sn e outcome none hb (by simp [he]),
      h1, h2, h3⟩

/-- A neutral closure from outside keeps the disposition, the injection flag and the fail count (R66, R69, R70). -/
theorem Channel.closeOutside_keeps (outcome : EpisodeOutcome) (hn : outcome.outcomeClass = .neutral) :
    (c.closeOutside ch outcome).1.disposition = c.disposition ∧
      (c.closeOutside ch outcome).1.pendingInjection = c.pendingInjection ∧
      (c.closeOutside ch outcome).1.failCount = c.failCount ∧
      (c.closeOutside ch outcome).1.energized = c.energized ∧
      (c.closeOutside ch outcome).1.snapshot = c.snapshot := by
  cases ht : c.tracking with
  | none => simp [Channel.closeOutside_none c ch outcome ht]
  | some p => simp [Channel.closeOutside_neutral c ch outcome hn p.1 p.2 ht]

/-- A trip outside an episode keeps a context sound (R72, R88). -/
theorem Channel.checkOvercurrent_sound (x : Half) (entry : Option SampleEntry) (h : c.Sound) (hb : c.Balanced)
    (he : c.episode = none) :
    (c.checkOvercurrent ch x entry).1.Sound ∧ (c.checkOvercurrent ch x entry).1.Balanced ∧
      (c.checkOvercurrent ch x entry).1.episode = none ∧
      (c.checkOvercurrent ch x entry).1.snapshot = c.snapshot ∧
      (c.checkOvercurrent ch x entry).1.energized = c.energized := by
  unfold Channel.checkOvercurrent
  split
  · split
    · rename_i entry sn hs hcond
      simp only [Bool.and_eq_true, beq_iff_eq] at hcond
      obtain ⟨⟨hen, hop⟩, _⟩ := hcond
      simp only [Channel.accountTrip]
      set d : Channel := { c.trip with trips := c.trip.trips + 1, failCount := min 15 (c.trip.failCount + 1) } with hd
      have hds : d.Sound := by
        refine ⟨by simp [hd, Channel.trip, he], ?_, ?_, ?_⟩
        · simp [hd, Channel.trip, hen]
        · intro _; simpa [hd, Channel.trip] using hen
        · simp [hd]
      have hdb : d.Balanced := by simpa [hd, Channel.trip, Channel.Balanced, he] using hb
      have hde : d.episode = none := by simp [hd, Channel.trip, he]
      refine ⟨d.decideLock_sound ch sn hde hds, ?_⟩
      rcases d.decideLock_cases ch sn with ⟨_, h'⟩ | ⟨_, h'⟩ <;> rw [h'] <;>
        exact ⟨hdb, hde, by simp [hd, Channel.trip], by simp [hd, Channel.trip]⟩
    · exact ⟨h, hb, he, rfl, rfl⟩
  · exact ⟨h, hb, he, rfl, rfl⟩

/-- An accepted frame keeps every context sound and balanced, its energized flag and its snapshot, and opens no
episode (R45, R46, R88). -/
theorem Channel.handleFrame_sound (x : Half) (entry : Option SampleEntry) (h : c.Sound) (hb : c.Balanced) :
    (c.handleFrame ch x entry).1.Sound ∧ (c.handleFrame ch x entry).1.Balanced ∧
      (c.handleFrame ch x entry).1.snapshot = c.snapshot ∧
      (c.handleFrame ch x entry).1.energized = c.energized ∧
      ((c.handleFrame ch x entry).1.episode.isSome → c.episode.isSome) := by
  cases ht : c.tracking with
  | none =>
    have he := h.no_episode ht
    obtain ⟨h1, h2, h3, h4, h5⟩ := c.checkOvercurrent_sound ch x entry h hb he
    have hc : c.handleFrame ch x entry = c.checkOvercurrent ch x entry := by simp [Channel.handleFrame, ht]
    rw [hc]
    exact ⟨h1, h2, h4, h5, by simp [h3]⟩
  | some p =>
    obtain ⟨sn, e⟩ := p
    obtain ⟨hs, he⟩ := Channel.tracking_eq_some ht
    have hi : c.episode.isSome := by simp [he]
    cases hh : e.handle sn.profile x entry with
    | stays e' =>
      have hc : c.handleFrame ch x entry = ({ c with episode := some e' }, []) := by
        simp [Channel.handleFrame, ht, hh]
      rw [hc]
      refine ⟨⟨fun _ => h.1 hi, h.2.1, h.2.2.1, h.2.2.2⟩, ?_, rfl, rfl, fun _ => hi⟩
      simpa [Channel.Balanced, hi] using hb
    | closes e' outcome r =>
      have hc : c.handleFrame ch x entry = c.close ch sn e' outcome r := by simp [Channel.handleFrame, ht, hh]
      rw [hc]
      obtain ⟨h1, h2, h3, _, _⟩ := c.close_fields ch sn e' outcome r
      exact ⟨c.close_sound ch sn e' outcome r h.clearEpisode, c.close_balanced ch sn e' outcome r hb hi, h3, h2,
        by simp [h1]⟩
    | trips e' =>
      have hc : c.handleFrame ch x entry = c.trip.close ch sn e' .overcurrent none := by
        simp [Channel.handleFrame, ht, hh]
      rw [hc]
      obtain ⟨h1, h2, h3, _, _⟩ := c.trip.close_fields ch sn e' .overcurrent none
      have hsound : Channel.Sound { c.trip with episode := none } :=
        ⟨by simp, fun _ => ⟨(h.1 hi).1, by simp [Channel.trip]⟩, h.2.2.1, h.2.2.2⟩
      exact ⟨c.trip.close_sound ch sn e' .overcurrent none hsound, c.trip.close_balanced ch sn e' .overcurrent none hb hi,
        h3, h2, by simp [h1]⟩

/-- In a sound context a closure from outside leaves no episode (R67). -/
theorem Channel.closeOutside_episode (outcome : EpisodeOutcome) (h : c.Sound) :
    (c.closeOutside ch outcome).1.episode = none := by
  cases ht : c.tracking with
  | none => rw [Channel.closeOutside_none c ch outcome ht]; exact h.no_episode ht
  | some p =>
    have hc : c.closeOutside ch outcome = c.close ch p.1 p.2 outcome none := by simp [Channel.closeOutside, ht]
    rw [hc]
    exact (c.close_fields ch p.1 p.2 outcome none).1

/-- An accepted frame opens no episode (R45). -/
theorem Channel.handleFrame_episode (x : Half) (entry : Option SampleEntry) (h : c.episode = none) :
    (c.handleFrame ch x entry).1.episode = none := by
  have ht : c.tracking = none := by simp [Channel.tracking, h]
  have hc : c.handleFrame ch x entry = c.checkOvercurrent ch x entry := by simp [Channel.handleFrame, ht]
  rw [hc]
  unfold Channel.checkOvercurrent
  split
  · split
    · rename_i entry sn _ _
      simp only [Channel.accountTrip]
      rcases Channel.decideLock_cases
        { c.trip with trips := c.trip.trips + 1, failCount := min 15 (c.trip.failCount + 1) } ch sn with
        ⟨_, h'⟩ | ⟨_, h'⟩ <;> rw [h'] <;> exact h
    · exact h
  · exact h

/-- A departed RELEASE keeps a context sound; its disposition and counters are kept (R18, R23, R24). -/
theorem Channel.released_sound (h : c.Sound) (he : c.episode = none) : c.released.Sound :=
  ⟨by simp [Channel.released, he], by simp [Channel.released], by simp [Channel.released], h.2.2.2⟩

theorem Channel.releasedByController_sound (h : c.Sound) : c.releasedByController.Sound :=
  ⟨by simp [Channel.releasedByController], by simp [Channel.releasedByController, Channel.released],
    by simp [Channel.releasedByController, Channel.released], h.2.2.2⟩

/-- An admitted ENERGIZE keeps an OPEN context sound (R29, R43, R44). -/
theorem Channel.energize_sound (snapshot : Option Snapshot) (opening : Option Half) (h : c.Sound)
    (ho : c.disposition = .open_) (hb : c.Balanced) (he : c.episode = none) :
    (c.energize snapshot opening).Sound ∧ (c.energize snapshot opening).Balanced := by
  have hp : c.pendingInjection = false := by
    by_contra hn
    exact (h.2.1 (by simpa using hn)).2 ho
  simp only [Channel.Balanced, he] at hb
  cases snapshot with
  | none => simp [Channel.energize, Channel.Sound, Channel.Balanced, hp, h.2.2.2, hb]
  | some sn =>
    cases opening with
    | none => simp [Channel.energize, Channel.Sound, Channel.Balanced, hp, h.2.2.2, hb]
    | some reference => simp [Channel.energize, Channel.Sound, Channel.Balanced, hp, ho, h.2.2.2, hb]

theorem Channel.unlocked_sound (h : c.Sound) (hb : c.Balanced) (hl : c.disposition = .locked) :
    c.unlocked.Sound ∧ c.unlocked.Balanced := by
  have he : c.episode = none := by
    by_contra hn
    have := (h.1 (Option.isSome_iff_ne_none.2 hn)).2.2
    simp [hl] at this
  refine ⟨⟨by simp [Channel.unlocked, he], ?_, h.2.2.1, by simp [Channel.unlocked]⟩, hb⟩
  intro hp
  have hp' : c.pendingInjection = true := hp
  exact ⟨(h.2.1 hp').1, by simp [Channel.unlocked, hp']⟩

theorem Channel.restart_sound (h : c.Sound) : c.restart.Sound ∧ c.restart.Balanced :=
  ⟨⟨by simp [Channel.restart], h.2.1, h.2.2.1, h.2.2.2⟩, by simp [Channel.restart, Channel.Balanced]⟩

theorem Channel.reset_sound : Channel.reset.Sound ∧ Channel.reset.Balanced := by decide

end Sys2Proof.Machine
end

