-- ==== Sys2Proof/Laws/Queue.lean ====
section
/-! SUPPORT. The report queue: what each of its operations can do, and that each keeps it sound. -/

namespace Sys2Proof.Machine

variable (q : ReportQueue)

/-! Coalescing and eviction. -/

theorem Record.coalesces_comm (a b : Record) : a.coalesces b = b.coalesces a := by
  cases a <;> cases b <;> simp [Record.coalesces, eq_comm]

theorem Record.raise_coalesces (a b : Record) : a.raise.coalesces b = a.coalesces b := by
  cases a <;> cases b <;> rfl

/-- A record that is neither BLOCKED nor MALFORMED coalesces with nothing (R119). -/
theorem Record.coalesces_false (a b : Record) (h1 : ∀ ch n, a ≠ .blocked ch n) (h2 : ∀ n, a ≠ .malformed n) :
    a.coalesces b = false := by
  cases a <;> cases b <;> simp_all [Record.coalesces]

/-- Coalescing changes the count of one record and keeps the length (R119). -/
theorem coalesceInto_some {r : Record} {l u : List Record} (h : coalesceInto r l = some u) :
    ∃ pre x post, l = pre ++ x :: post ∧ u = pre ++ x.raise :: post ∧ r.coalesces x = true := by
  induction l generalizing u with
  | nil => simp [coalesceInto] at h
  | cons x xs ih =>
    by_cases hx : r.coalesces x = true
    · simp only [coalesceInto, hx, if_true, Option.some.injEq] at h
      exact ⟨[], x, xs, rfl, h.symm, hx⟩
    · simp only [coalesceInto, hx, Bool.false_eq_true, if_false, Option.map_eq_some_iff] at h
      obtain ⟨v, hv, rfl⟩ := h
      obtain ⟨pre, y, post, rfl, rfl, hy⟩ := ih hv
      exact ⟨x :: pre, y, post, rfl, rfl, hy⟩

theorem coalesceInto_none {r : Record} {l : List Record} (h : coalesceInto r l = none) :
    ∀ x ∈ l, r.coalesces x = false := by
  induction l with
  | nil => simp
  | cons x xs ih =>
    by_cases hx : r.coalesces x = true
    · simp [coalesceInto, hx] at h
    · simp only [coalesceInto, hx, Bool.false_eq_true, if_false, Option.map_eq_none_iff] at h
      intro y hy
      rcases List.mem_cons.1 hy with rfl | hy
      · simpa using hx
      · exact ih h y hy

/-- Eviction removes one PASS VERDICT (R120). -/
theorem evictPass_some {l u : List Record} (h : evictPass l = some u) :
    ∃ pre x post, l = pre ++ x :: post ∧ u = pre ++ post ∧ x.isPass = true := by
  induction l generalizing u with
  | nil => simp [evictPass] at h
  | cons x xs ih =>
    by_cases hx : x.isPass = true
    · simp only [evictPass, hx, if_true, Option.some.injEq] at h
      exact ⟨[], x, xs, rfl, h.symm, hx⟩
    · simp only [evictPass, hx, Bool.false_eq_true, if_false, Option.map_eq_some_iff] at h
      obtain ⟨v, hv, rfl⟩ := h
      obtain ⟨pre, y, post, rfl, rfl, hy⟩ := ih hv
      exact ⟨x :: pre, y, post, rfl, rfl, hy⟩

/-! Placing. -/

/-- What placing a record can do: coalesce, append, evict and append, or discard (R119, R120). -/
theorem ReportQueue.place_cases (r : Record) :
    (∃ u, coalesceInto r q.unsent = some u ∧ q.place r = { q with unsent := u }) ∨
    (coalesceInto r q.unsent = none ∧ q.total < queueCapacity ∧
      q.place r = { q with unsent := q.unsent ++ [r] }) ∨
    (coalesceInto r q.unsent = none ∧ queueCapacity ≤ q.total ∧ ∃ u, evictPass q.unsent = some u ∧
      q.place r = { q.countLoss with unsent := u ++ [r] }) ∨
    (coalesceInto r q.unsent = none ∧ queueCapacity ≤ q.total ∧ evictPass q.unsent = none ∧
      q.place r = q.countLoss) := by
  unfold ReportQueue.place
  cases hc : coalesceInto r q.unsent with
  | some u => exact .inl ⟨u, rfl, rfl⟩
  | none =>
    by_cases ht : q.total < queueCapacity
    · exact .inr (.inl ⟨rfl, ht, by simp [ht]⟩)
    · cases he : evictPass q.unsent with
      | some u => exact .inr (.inr (.inl ⟨rfl, by omega, u, rfl, by simp [ht]⟩))
      | none => exact .inr (.inr (.inr ⟨rfl, by omega, rfl, by simp [ht]⟩))

/-- Placing a record touches the unsent part and the loss count alone. -/
theorem ReportQueue.place_frame (r : Record) :
    q.place r = { q with unsent := (q.place r).unsent, lossCount := (q.place r).lossCount } := by
  rcases q.place_cases r with ⟨u, _, h⟩ | ⟨_, _, h⟩ | ⟨_, _, u, _, h⟩ | ⟨_, _, _, h⟩ <;> rw [h] <;> rfl

/-- What the check for losses can do: place a LOSS record, or nothing (R121). -/
theorem ReportQueue.settleLoss_cases :
    (q.lossCount ≠ 0 ∧ q.total < queueCapacity ∧
      q.settleLoss = { q with unsent := q.unsent ++ [.loss q.lossCount], lossCount := 0 }) ∨
    ((q.lossCount = 0 ∨ queueCapacity ≤ q.total) ∧ q.settleLoss = q) := by
  unfold ReportQueue.settleLoss
  split
  · rename_i h; exact .inl ⟨h.1, h.2, rfl⟩
  · rename_i h; exact .inr ⟨by omega, rfl⟩

theorem ReportQueue.settleLoss_frame :
    q.settleLoss = { q with unsent := q.settleLoss.unsent, lossCount := q.settleLoss.lossCount } := by
  rcases q.settleLoss_cases with ⟨_, _, h⟩ | ⟨_, h⟩ <;> rw [h]

theorem ReportQueue.foldl_place_frame (records : List Record) : ∀ q : ReportQueue,
    ∃ unsent lossCount, records.foldl ReportQueue.place q = { q with unsent, lossCount } := by
  induction records with
  | nil => intro q; exact ⟨q.unsent, q.lossCount, rfl⟩
  | cons r rs ih =>
    intro q
    obtain ⟨u, n, h⟩ := ih (q.place r)
    refine ⟨u, n, ?_⟩
    rw [List.foldl_cons, h, q.place_frame r]

/-- Handing records touches the unsent part and the loss count alone (R117 to R121). -/
theorem ReportQueue.hand_frame (records : List Record) :
    ∃ unsent lossCount, q.hand records = { q with unsent, lossCount } := by
  cases records with
  | nil => exact ⟨q.unsent, q.lossCount, rfl⟩
  | cons r rs =>
    obtain ⟨u, n, h⟩ := ReportQueue.foldl_place_frame (r :: rs) q
    refine ⟨(q.hand (r :: rs)).unsent, (q.hand (r :: rs)).lossCount, ?_⟩
    change ReportQueue.settleLoss ((r :: rs).foldl ReportQueue.place q) =
      { q with
        unsent := (ReportQueue.settleLoss ((r :: rs).foldl ReportQueue.place q)).unsent
        lossCount := (ReportQueue.settleLoss ((r :: rs).foldl ReportQueue.place q)).lossCount }
    rw [h]
    exact ReportQueue.settleLoss_frame { q with unsent := u, lossCount := n }

@[simp] theorem ReportQueue.hand_window (records : List Record) : (q.hand records).window = q.window := by
  obtain ⟨u, n, h⟩ := q.hand_frame records; rw [h]
@[simp] theorem ReportQueue.hand_cursor (records : List Record) : (q.hand records).cursor = q.cursor := by
  obtain ⟨u, n, h⟩ := q.hand_frame records; rw [h]
@[simp] theorem ReportQueue.hand_nextSequence (records : List Record) :
    (q.hand records).nextSequence = q.nextSequence := by
  obtain ⟨u, n, h⟩ := q.hand_frame records; rw [h]
@[simp] theorem ReportQueue.hand_retryCount (records : List Record) : (q.hand records).retryCount = q.retryCount := by
  obtain ⟨u, n, h⟩ := q.hand_frame records; rw [h]
@[simp] theorem ReportQueue.hand_retransmitTimer (records : List Record) :
    (q.hand records).retransmitTimer = q.retransmitTimer := by
  obtain ⟨u, n, h⟩ := q.hand_frame records; rw [h]
@[simp] theorem ReportQueue.hand_sender (records : List Record) : (q.hand records).sender = q.sender := by
  obtain ⟨u, n, h⟩ := q.hand_frame records; rw [h]

/-- A record that coalesces with nothing, handed with a free place, is placed at the back (R118, R119). -/
theorem ReportQueue.place_room (r : Record) (h1 : ∀ ch n, r ≠ .blocked ch n) (h2 : ∀ n, r ≠ .malformed n)
    (ht : q.total < queueCapacity) : q.place r = { q with unsent := q.unsent ++ [r] } := by
  rcases q.place_cases r with ⟨u, hc, _⟩ | ⟨_, _, h⟩ | ⟨_, hf, _⟩ | ⟨_, hf, _⟩
  · obtain ⟨_, x, _, _, _, hx⟩ := coalesceInto_some hc
    rw [Record.coalesces_false r x h1 h2] at hx
    exact absurd hx (by simp)
  · exact h
  · omega
  · omega

/-! Soundness. -/

/-- The places of a sound queue, without the condition on standing losses. -/
theorem ReportQueue.place_bounded (r : Record) (h : q.Bounded) : (q.place r).Bounded := by
  obtain ⟨h1, h2, h3, h4, h5, h6⟩ := h
  simp only [ReportQueue.total] at h1 h5
  rcases q.place_cases r with ⟨u, hc, h⟩ | ⟨_, ht, h⟩ | ⟨_, ht, u, he, h⟩ | ⟨_, ht, _, h⟩ <;> rw [h]
  · obtain ⟨pre, x, post, hl, rfl, _⟩ := coalesceInto_some hc
    have : (pre ++ x.raise :: post).length = q.unsent.length := by simp [hl]
    refine ⟨?_, h2, h3, h4, ?_, h6⟩ <;> simp only [ReportQueue.total, this]
    · exact h1
    · exact h5
  · simp only [ReportQueue.total] at ht
    refine ⟨?_, h2, h3, h4, ?_, h6⟩ <;> simp only [ReportQueue.total, List.length_append, List.length_singleton]
    · omega
    · intro hn; have := h5 hn; omega
  · obtain ⟨pre, x, post, hl, rfl, _⟩ := evictPass_some he
    have hlen : q.unsent.length = (pre ++ post).length + 1 := by simp [hl]; omega
    simp only [ReportQueue.total] at ht
    refine ⟨?_, h2, h3, ?_, ?_, h6⟩ <;>
      simp only [ReportQueue.total, ReportQueue.countLoss, List.length_append, List.length_singleton] at * <;> omega
  · simp only [ReportQueue.total] at ht
    refine ⟨?_, h2, h3, ?_, ?_, h6⟩ <;> simp only [ReportQueue.total, ReportQueue.countLoss] <;> omega

theorem ReportQueue.settleLoss_bounded (h1 : q.total ≤ queueCapacity) (h2 : q.window.length ≤ windowCapacity)
    (h3 : q.cursor ≤ q.window.length) (h4 : q.lossCount ≤ 65535) (h6 : q.retryCount ≤ 5) :
    q.settleLoss.Bounded := by
  rcases q.settleLoss_cases with ⟨_, ht, h⟩ | ⟨hl, h⟩ <;> rw [h]
  · refine ⟨?_, h2, h3, by simp, by simp, h6⟩
    simp only [ReportQueue.total, List.length_append, List.length_singleton] at *
    omega
  · exact ⟨h1, h2, h3, h4, fun hn => by omega, h6⟩

theorem ReportQueue.hand_bounded (records : List Record) (h : q.Bounded) : (q.hand records).Bounded := by
  have hf : ∀ (rs : List Record) (q : ReportQueue), q.Bounded → (rs.foldl ReportQueue.place q).Bounded := by
    intro rs
    induction rs with
    | nil => intro q h; exact h
    | cons r rs ih => intro q h; exact ih _ (q.place_bounded r h)
  cases records with
  | nil => exact h
  | cons r rs =>
    obtain ⟨h1, h2, h3, h4, _, h6⟩ := hf (r :: rs) q h
    exact ReportQueue.settleLoss_bounded _ h1 h2 h3 h4 h6

theorem ReportQueue.place_coalesced (r : Record) (h : q.Coalesced) : (q.place r).Coalesced := by
  have happ : ∀ l : List Record, l.Pairwise (fun a b => a.coalesces b = false) → (∀ x ∈ l, r.coalesces x = false) →
      (l ++ [r]).Pairwise (fun a b => a.coalesces b = false) := by
    intro l hl hr
    refine List.pairwise_append.2 ⟨hl, by simp, ?_⟩
    intro a ha b hb
    rw [List.mem_singleton.1 hb, Record.coalesces_comm]
    exact hr a ha
  rcases q.place_cases r with ⟨u, hc, h'⟩ | ⟨hn, _, h'⟩ | ⟨hn, _, u, he, h'⟩ | ⟨_, _, _, h'⟩ <;> rw [h']
  · obtain ⟨pre, x, post, hl, rfl, _⟩ := coalesceInto_some hc
    simp only [ReportQueue.Coalesced, hl] at h ⊢
    obtain ⟨ha, hb, hab⟩ := List.pairwise_append.1 h
    obtain ⟨hx, hp⟩ := List.pairwise_cons.1 hb
    refine List.pairwise_append.2 ⟨ha, List.pairwise_cons.2 ⟨fun b hb => ?_, hp⟩, ?_⟩
    · rw [Record.raise_coalesces]; exact hx b hb
    · intro a ha b hb
      rcases List.mem_cons.1 hb with rfl | hb
      · rw [Record.coalesces_comm, Record.raise_coalesces, Record.coalesces_comm]; exact hab a ha x (by simp)
      · exact hab a ha b (by simp [hb])
  · exact happ _ h (coalesceInto_none hn)
  · obtain ⟨pre, x, post, hl, rfl, _⟩ := evictPass_some he
    have hsub : (pre ++ post).Sublist q.unsent := by rw [hl]; simp
    exact happ _ (h.sublist hsub) fun y hy => coalesceInto_none hn y (hsub.subset hy)
  · exact h

theorem ReportQueue.settleLoss_coalesced (h : q.Coalesced) : q.settleLoss.Coalesced := by
  rcases q.settleLoss_cases with ⟨_, _, h'⟩ | ⟨_, h'⟩ <;> rw [h']
  · refine List.pairwise_append.2 ⟨h, by simp, ?_⟩
    intro a _ b hb
    rw [List.mem_singleton.1 hb, Record.coalesces_comm]
    exact Record.coalesces_false _ _ (by simp) (by simp)
  · exact h

theorem ReportQueue.hand_coalesced (records : List Record) (h : q.Coalesced) : (q.hand records).Coalesced := by
  have hf : ∀ (rs : List Record) (q : ReportQueue), q.Coalesced → (rs.foldl ReportQueue.place q).Coalesced := by
    intro rs
    induction rs with
    | nil => intro q h; exact h
    | cons r rs ih => intro q h; exact ih _ (q.place_coalesced r h)
  cases records with
  | nil => exact h
  | cons r rs => exact ReportQueue.settleLoss_coalesced _ (hf (r :: rs) q h)

/-- The conditions of `State.ReportSound` on the queue alone. -/
abbrev ReportQueue.Sound (q : ReportQueue) : Prop := q.Bounded ∧ q.Numbered ∧ q.TimerSound ∧ q.Coalesced

/-- Handing records keeps the queue sound. -/
theorem ReportQueue.hand_sound (records : List Record) (h : q.Sound) : (q.hand records).Sound := by
  obtain ⟨h1, h2, h3, h4⟩ := h
  refine ⟨q.hand_bounded records h1, ?_, ?_, q.hand_coalesced records h4⟩
  · simpa [ReportQueue.Numbered] using h2
  · simpa [ReportQueue.TimerSound] using h3

theorem ReportQueue.settleLoss_sound (h1 : q.total ≤ queueCapacity) (h2 : q.window.length ≤ windowCapacity)
    (h3 : q.cursor ≤ q.window.length) (h4 : q.lossCount ≤ 65535) (h6 : q.retryCount ≤ 5) (hn : q.Numbered)
    (ht : q.TimerSound) (hc : q.Coalesced) : q.settleLoss.Sound := by
  refine ⟨q.settleLoss_bounded h1 h2 h3 h4 h6, ?_, ?_, q.settleLoss_coalesced hc⟩
  · rw [q.settleLoss_frame]; exact hn
  · rw [q.settleLoss_frame]; exact ht

/-- The expiry of the running retransmit timer keeps the queue sound (R127, R128). -/
theorem ReportQueue.expire_sound (ms : Nat) (h : q.Sound) (hr : q.retransmitTimer.isSome) : (q.expire ms).Sound := by
  obtain ⟨⟨h1, h2, h3, h4, h5, h6⟩, hn, ht, hc⟩ := h
  have hready : q.sender = .ready := by
    by_contra hne
    simp [ht.2 hne] at hr
  have hw : q.window ≠ [] := (ht.1 hready).1 hr
  unfold ReportQueue.expire
  split
  · exact ReportQueue.settleLoss_sound _ h1 h2 (Nat.zero_le _) h4 (by simp only; omega) hn
      ⟨fun _ => by simp [hw], fun hne => absurd hready hne⟩ hc
  · exact ReportQueue.settleLoss_sound _ h1 h2 h3 h4 h6 hn ⟨fun hne => by simp at hne, fun _ => rfl⟩ hc

/-- A changed sink address keeps the queue sound (R133, R134). -/
theorem ReportQueue.changeSink_sound (sink : Byte) (ms : Nat) (h : q.Sound) :
    (q.changeSink sink ms).Sound ∧
      (q.changeSink sink ms).sender = if sink = 0x00#8 then .noSink else .ready := by
  obtain ⟨⟨h1, h2, h3, h4, h5, h6⟩, hn, ht, hc⟩ := h
  unfold ReportQueue.changeSink
  split
  · refine ⟨ReportQueue.settleLoss_sound _ h1 h2 (Nat.zero_le _) h4 (Nat.zero_le _) hn
      ⟨fun hne => by simp at hne, fun _ => rfl⟩ hc, ?_⟩
    rw [ReportQueue.settleLoss_frame]
  · refine ⟨ReportQueue.settleLoss_sound _ h1 h2 (Nat.zero_le _) h4 (Nat.zero_le _) hn
      ⟨fun _ => ?_, fun hne => by simp at hne⟩ hc, ?_⟩
    · cases hw : q.window <;> simp
    · rw [ReportQueue.settleLoss_frame]

/-- The queue after a warm restart is sound (R136). -/
theorem ReportQueue.restart_sound (sink : Byte) (generation : Half) :
    (ReportQueue.restart sink generation).Sound ∧
      (ReportQueue.restart sink generation).sender = if sink = 0x00#8 then .noSink else .ready := by
  refine ⟨⟨⟨?_, ?_, ?_, ?_, ?_, ?_⟩, ?_, ?_, ?_⟩, rfl⟩ <;>
    simp [ReportQueue.restart, ReportQueue.reset, ReportQueue.total, queueCapacity, ReportQueue.Numbered,
      ReportQueue.TimerSound, ReportQueue.Coalesced]

/-- The number of the record at place `k` of a window that ends below `next`. -/
theorem ReportQueue.Numbered.getElem {q : ReportQueue} (h : q.Numbered) (k : Nat) (hk : k < q.window.length) :
    q.window[k].number = q.nextSequence - BitVec.ofNat 16 (q.window.length - k) := by
  have := congrArg (fun l => l[k]?) h
  simpa [hk] using this

/-- A departure of the offered record keeps the queue sound (R124, R125). -/
theorem ReportQueue.depart_sound (ms : Nat) (h : q.Sound) (ho : q.offer.isSome) : (q.depart ms).Sound ∧
    (q.depart ms).sender = q.sender := by
  obtain ⟨⟨h1, h2, h3, h4, h5, h6⟩, hn, ht, hc⟩ := h
  have hoff : q.sender = .ready ∧ q.cursor < windowCapacity := by
    unfold ReportQueue.offer at ho
    split at ho
    · assumption
    · simp at ho
  unfold ReportQueue.depart
  by_cases hlt : q.cursor < q.window.length
  · simp only [hlt, if_true]
    refine ⟨ReportQueue.settleLoss_sound _ h1 h2 (by simp only; omega) h4 h6 hn ht hc, ?_⟩
    rw [ReportQueue.settleLoss_frame]
  · have heq : q.cursor = q.window.length := by omega
    simp only [hlt, if_false]
    have hun : ∃ r rest, q.unsent = r :: rest := by
      unfold ReportQueue.offer at ho
      rw [if_pos hoff] at ho
      unfold ReportQueue.atCursor at ho
      rw [heq, List.getElem?_eq_none (le_refl _)] at ho
      cases hu : q.unsent with
      | nil => simp [hu] at ho
      | cons r rest => exact ⟨r, rest, rfl⟩
    obtain ⟨r, rest, hu⟩ := hun
    simp only [ReportQueue.total, hu, List.length_cons] at h1
    have hnum : q.number ms =
        { q with
          window := q.window ++ [⟨q.nextSequence, r⟩]
          unsent := rest
          nextSequence := q.nextSequence + 1
          retransmitTimer := if q.window.isEmpty then some ms else q.retransmitTimer } := by
      simp [ReportQueue.number, hu]
    rw [hnum]
    refine ⟨ReportQueue.settleLoss_sound _ ?_ ?_ ?_ h4 h6 ?_ ?_ ?_, ?_⟩
    · simp only [ReportQueue.total, List.length_append, List.length_singleton]; omega
    · simp only [List.length_append, List.length_singleton]; omega
    · simp only [List.length_append, List.length_singleton]; omega
    · simp only [ReportQueue.Numbered, List.length_append, List.length_singleton, List.map_append, List.map_cons,
        List.map_nil, List.range_succ]
      rw [hn]
      congr 1
      · apply List.map_congr_left
        intro k hk
        have hk := List.mem_range.1 hk
        have : q.window.length + 1 - k = (q.window.length - k) + 1 := by omega
        rw [this, BitVec.ofNat_add]
        simp
      · simp
    · refine ⟨fun _ => ?_, fun hne => absurd hoff.1 hne⟩
      cases hw : q.window with
      | nil => simp
      | cons a l => simpa [hw] using ht.1 hoff.1
    · have : rest.Sublist q.unsent := by rw [hu]; exact List.sublist_cons_self r rest
      exact hc.sublist this
    · rw [ReportQueue.settleLoss_frame]

/-- What an acknowledgement does, where its number names the record behind `before` (R130). -/
theorem ReportQueue.acknowledge_some (a : Half) (ms : Nat) {q' : ReportQueue} (h : q.acknowledge a ms = some q') :
    ∃ k, k < q.window.length ∧
      q' = ReportQueue.settleLoss
        { q with
          window := q.window.drop (k + 1)
          cursor := q.cursor - (k + 1)
          retryCount := 0
          sender := if q.sender = .stalled then .ready else q.sender
          retransmitTimer := if (q.window.drop (k + 1)).isEmpty then none else some ms } := by
  unfold ReportQueue.acknowledge at h
  obtain ⟨k, hk, rfl⟩ := Option.map_eq_some_iff.1 h
  obtain ⟨hlt, _⟩ := List.findIdx?_eq_some_iff_findIdx_eq.1 hk
  exact ⟨k, hlt, rfl⟩

/-- An acknowledgement keeps the queue sound, unless no sink is set (R130). -/
theorem ReportQueue.acknowledge_sound (a : Half) (ms : Nat) (h : q.Sound) (hs : q.sender ≠ .noSink)
    {q' : ReportQueue} (ha : q.acknowledge a ms = some q') : q'.Sound ∧ q'.sender = .ready := by
  obtain ⟨⟨h1, h2, h3, h4, h5, h6⟩, hn, ht, hc⟩ := h
  obtain ⟨k, hk, rfl⟩ := q.acknowledge_some a ms ha
  have hready : (if q.sender = .stalled then SenderState.ready else q.sender) = .ready := by
    cases hq : q.sender <;> simp_all
  simp only [ReportQueue.total] at h1
  refine ⟨ReportQueue.settleLoss_sound _ ?_ ?_ ?_ h4 (Nat.zero_le _) ?_ ?_ hc, ?_⟩
  · simp only [ReportQueue.total, List.length_drop]; omega
  · simp only [List.length_drop]; omega
  · simp only [List.length_drop]; omega
  · have hd : q.window.drop (k + 1) ≠ [] ∨ q.window.drop (k + 1) = [] := (em _).symm
    simp only [ReportQueue.Numbered, List.length_drop, List.map_drop]
    rw [hn]
    apply List.ext_getElem
    · simp
    · intro i h1 h2
      simp only [List.length_map, List.length_range] at h2
      simp only [List.getElem_drop, List.getElem_map, List.getElem_range]
      congr 2
      omega
  · rw [hready]
    refine ⟨fun _ => ?_, fun hne => absurd rfl hne⟩
    cases hw : q.window.drop (k + 1) <;> simp
  · rw [ReportQueue.settleLoss_frame]; exact hready

end Sys2Proof.Machine
end

