-- ==== Sys2Proof/Laws/Frames.lean ====
section
/-! SUPPORT. The frames of the shared operations: the fields that each of them can touch, and that what it does to the
report queue is to hand groups of records to it. -/

namespace Sys2Proof.Machine

variable (s : State)

/-! Frames with a correct check sequence (R180). -/

theorem Frame.withCrc_intact (f : Frame) : frameIntact f.withCrc := rfl

theorem Frame.build_intact (kind destination source sequence : Byte) (payload : List Byte) :
    frameIntact (Frame.build kind destination source sequence payload) := rfl

/-- A judged frame departs intact if it was received intact (R32). -/
theorem judgedFrame_intact (f : Frame) (entries departing : List CommandEntry) (h : frameIntact f) :
    frameIntact (judgedFrame f entries departing) := by
  unfold judgedFrame
  split
  · exact h
  · rfl

/-- Groups of records handed one after another. -/
abbrev ReportQueue.handAll (q : ReportQueue) (groups : List (List Record)) : ReportQueue :=
  groups.foldl ReportQueue.hand q

theorem ReportQueue.handAll_append (q : ReportQueue) (a b : List (List Record)) :
    (q.handAll a).handAll b = q.handAll (a ++ b) := by simp [ReportQueue.handAll]

theorem ReportQueue.foldl_hand_eq {α : Type} (g : α → List Record) (l : List α) (q : ReportQueue) :
    l.foldl (fun q a => q.hand (g a)) q = q.handAll (l.map g) := by simp [ReportQueue.handAll, List.foldl_map]

/-- Handing groups of records keeps the queue sound and its sender. -/
theorem ReportQueue.handAll_sound (groups : List (List Record)) : ∀ q : ReportQueue, q.Sound →
    (q.handAll groups).Sound ∧ (q.handAll groups).sender = q.sender := by
  induction groups with
  | nil => intro q h; exact ⟨h, rfl⟩
  | cons r groups ih =>
    intro q h
    have := ih _ (q.hand_sound r h)
    exact ⟨this.1, by rw [← q.hand_sender r]; exact this.2⟩

/-- A void touches the channels and the report queue (R79). -/
theorem State.voidEpisodes_frame (outcome : EpisodeOutcome) : ∃ channels groups,
    s.voidEpisodes outcome = { s with channels, report := s.report.handAll groups } := by
  obtain ⟨channels, h, _⟩ := s.voidEpisodes_spec outcome
  exact ⟨channels, _, by rw [h, ReportQueue.foldl_hand_eq]⟩

/-- An accepted frame at the tracker touches the channels and the report queue (R45). -/
theorem State.trackFrame_frame (m : Sample) : ∃ channels groups,
    s.trackFrame m = { s with channels, report := s.report.handAll groups } := by
  obtain ⟨channels, h, _⟩ := s.trackFrame_spec m
  exact ⟨channels, _, by rw [h, ReportQueue.foldl_hand_eq]⟩

/-- The silence of the driver touches the observer, the channels and the report queue (R103). -/
theorem State.fallSilent_frame : ∃ channels groups,
    s.fallSilent =
      { s with
        observer := { s.observer with activity := .silent, reference := none, silenceTimer := none }
        channels, report := s.report.handAll groups } := by
  obtain ⟨channels, h, _⟩ := s.fallSilent_spec
  refine ⟨channels, (allChannels.map fun ch => ((s.channel ch).closeOutside ch .voidSilent).2) ++ [[.driverSilent]], ?_⟩
  rw [h, ReportQueue.foldl_hand_eq, ← ReportQueue.handAll_append]
  rfl

/-- The sign of life (R101). -/
theorem State.signOfLife_eq :
    s.signOfLife =
      { s with
        observer := { s.observer with activity := .active, silenceTimer := some s.active.policy.silenceMs }
        report := s.report.hand (if s.observer.activity = .silent then [.driverBack] else []) } := rfl

/-- The supply evaluation touches the supply state, the channels and the report queue (R110). -/
theorem State.evaluateSupply_frame (supply : Nat) : ∃ state channels groups,
    s.evaluateSupply supply =
      { s with observer := { s.observer with supply := state }, channels, report := s.report.handAll groups } := by
  unfold State.evaluateSupply
  simp only
  split
  · split
    · obtain ⟨channels, groups, h⟩ :=
        State.voidEpisodes_frame { s with observer := { s.observer with supply := .low } } .voidSupply
      refine ⟨.low, channels, groups ++ [[.supplyLow supply]], ?_⟩
      rw [h, ← ReportQueue.handAll_append]
      rfl
    · exact ⟨s.observer.supply, s.channels, [], rfl⟩
  · split
    · exact ⟨.ok, s.channels, [[.supplyOk supply]], rfl⟩
    · exact ⟨s.observer.supply, s.channels, [], rfl⟩

/-- An accepted SAMPLE frame touches the reference, the supply state, the channels and the report queue (R108). -/
theorem State.acceptSample_frame (m : Sample) : ∃ state channels groups,
    s.acceptSample m =
      { s with
        observer := { s.observer with reference := some m.index, supply := state }
        channels, report := s.report.handAll groups } := by
  unfold State.acceptSample
  obtain ⟨state, channels, groups, h⟩ :=
    State.evaluateSupply_frame { s with observer := { s.observer with reference := some m.index } } m.supply
  simp only [h]
  obtain ⟨channels', groups', h'⟩ := State.trackFrame_frame
    { s with
      observer := { s.observer with reference := some m.index, supply := state }
      channels, report := s.report.handAll groups } m
  exact ⟨state, channels', groups ++ groups', by rw [h', ReportQueue.handAll_append]⟩

/-- A SAMPLE payload touches the reference, the supply state, the channels, the report queue and three counters (R105
to R108). -/
theorem State.observe_frame (payload : List Byte) : ∃ reference supply channels groups malformed duplicate resync,
    s.observe payload =
      { s with
        observer := { s.observer with reference, supply }
        channels, report := s.report.handAll groups
        monitor :=
          { s.monitor with malformedSample := malformed, duplicateSample := duplicate, resync } } := by
  unfold State.observe
  split
  · rename_i m _
    unfold State.observeSample
    split
    · exact ⟨_, _, s.channels, [], _, _, _, rfl⟩
    · unfold State.resync
      obtain ⟨channels, groups, h⟩ := s.voidEpisodes_frame .voidGap
      simp only [h]
      obtain ⟨state, channels', groups', h'⟩ := State.acceptSample_frame
        { s with
          channels, report := s.report.handAll groups
          monitor := { s.monitor with resync := s.monitor.resync + 1 } } m
      exact ⟨_, state, channels', groups ++ groups', _, _, _, by rw [h', ReportQueue.handAll_append]⟩
    · obtain ⟨state, channels, groups, h⟩ := s.acceptSample_frame m
      exact ⟨_, state, channels, groups, _, _, _, by rw [h]⟩
    · obtain ⟨state, channels, groups, h⟩ := s.acceptSample_frame m
      exact ⟨_, state, channels, groups, _, _, _, by rw [h]⟩
  · exact ⟨_, _, s.channels, [], _, _, _, rfl⟩

/-- A judged entry touches the channels, the report queue and one counter (R28 to R31). -/
theorem State.judgeEntry_frame (e : CommandEntry) : ∃ channels groups blockedEntry,
    (s.judgeEntry e).1 =
      { s with channels, report := s.report.handAll groups, monitor := { s.monitor with blockedEntry } } := by
  unfold State.judgeEntry
  split
  · split
    · exact ⟨_, [_], s.monitor.blockedEntry, rfl⟩
    · exact ⟨_, [[.blocked e.channel 1]], s.monitor.blockedEntry + 1, rfl⟩
  · split
    · exact ⟨_, [_], s.monitor.blockedEntry, rfl⟩
    · exact ⟨s.channels, [], s.monitor.blockedEntry, rfl⟩

theorem State.judgeEntries_frame (l : List CommandEntry) : ∀ s : State, ∃ channels groups blockedEntry,
    (s.judgeEntries l).1 =
      { s with channels, report := s.report.handAll groups, monitor := { s.monitor with blockedEntry } } := by
  induction l with
  | nil => intro s; exact ⟨s.channels, [], s.monitor.blockedEntry, rfl⟩
  | cons e l ih =>
    intro s
    obtain ⟨channels, groups, blocked, h⟩ := s.judgeEntry_frame e
    obtain ⟨channels', groups', blocked', h'⟩ := ih (s.judgeEntry e).1
    refine ⟨channels', groups ++ groups', blocked', ?_⟩
    change ((s.judgeEntry e).1.judgeEntries l).1 = _
    rw [h', h, ReportQueue.handAll_append]

/-- An injected departure touches the transmitter, the channels and two counters (R93, R94). -/
theorem State.departInjection_frame : ∃ channels : Vector Channel 16,
    s.departInjection =
      { s with
        channels
        dPort := { s.dPort with sending := some s.injectedFrame }
        injectionCounter := s.injectionCounter + 1
        monitor := { s.monitor with injectedFrame := s.monitor.injectedFrame + 1 } } ∧
    ∀ ch : ChannelId, channels[ch.val] =
      if (s.channel ch).pendingInjection = true then (s.channel ch).released else s.channel ch := by
  obtain ⟨channels, h, hc⟩ := foldl_applyInjection s.pendingChannels s
  refine ⟨channels, ?_, fun ch => ?_⟩
  · unfold State.departInjection
    simp only [h]
    rfl
  · rw [hc ch]
    simp [State.pendingChannels]

/-- The frames that a departure on the D-port can put into transmission: the injected frame, a frame of the queue that
is not judged, or a judged frame as it departs (R168, R169). -/
inductive State.DSends (s : State) (l : List Frame) : Option Frame → Prop
  | nothing : State.DSends s l s.dPort.sending
  | injected : s.injectionOffered = true → State.DSends s l (some s.injectedFrame)
  | plain (f : Frame) : f ∈ l → s.judges f = false → State.DSends s l (some f)
  | judged (f : Frame) (entries : List CommandEntry) (t : State) : f ∈ l → s.judges f = true →
      readCommand f.payload = some entries → t.channels = s.channels →
      State.DSends s l (some (judgedFrame f entries (t.judgeEntries entries).2))

/-- A departure on the D-port touches the transmitter, the queue, the channels, the report queue and counters; what is
left of the queue is a tail of it (R168, R169). -/
theorem State.departD_frame (l : List Frame) : ∀ (s : State) (head : Bool),
    ∃ sending dfq channels groups injectionCounter malformed blocked injected,
      s.departD head l =
        { s with
          dPort := { s.dPort with sending }, dfq, channels, report := s.report.handAll groups, injectionCounter
          monitor :=
            { s.monitor with
              malformedCommand := malformed, blockedEntry := blocked, injectedFrame := injected } } ∧
      dfq <:+ l ∧ State.DSends s l sending := by
  induction l with
  | nil =>
    intro s head
    unfold State.departD
    simp only
    split
    · rename_i hi
      obtain ⟨channels, h, _⟩ := State.departInjection_frame { s with dfq := [] }
      exact ⟨_, [], channels, [], _, _, _, _, h, List.suffix_refl _, .injected hi⟩
    · exact ⟨s.dPort.sending, [], s.channels, [], _, _, _, _, rfl, List.suffix_refl _, .nothing⟩
  | cons f l ih =>
    intro s head
    unfold State.departD
    split
    · rename_i hb
      have hi : s.injectionOffered = true := (Bool.and_eq_true_iff.1 hb).2
      obtain ⟨channels, h, _⟩ := State.departInjection_frame { s with dfq := f :: l }
      exact ⟨_, f :: l, channels, [], _, _, _, _, h, List.suffix_refl _, .injected hi⟩
    · split
      · rename_i hj
        split
        · rename_i entries he
          obtain ⟨channels, groups, blocked, h⟩ := State.judgeEntries_frame entries { s with dfq := l }
          refine ⟨_, l, channels, groups, s.injectionCounter, s.monitor.malformedCommand, blocked,
            s.monitor.injectedFrame, ?_, List.suffix_cons f l,
            .judged f entries { s with dfq := l } (by simp) hj he rfl⟩
          simp only [State.departJudged, h]
          rfl
        · obtain ⟨sending, dfq, channels, groups, counter, malformed, blocked, injected, h, hs, hd⟩ :=
            ih s.dropMalformed false
          refine ⟨sending, dfq, channels, [.malformed 1] :: groups, counter, malformed, blocked, injected, h,
            hs.trans (List.suffix_cons f l), ?_⟩
          cases hd with
          | nothing => exact .nothing
          | injected hi => exact .injected hi
          | plain g hg hj => exact .plain g (List.mem_cons_of_mem f hg) hj
          | judged g entries t hg hj he ht => exact .judged g entries t (List.mem_cons_of_mem f hg) hj he ht
      · rename_i hj
        exact ⟨some f, l, s.channels, [], _, _, _, _, rfl, List.suffix_cons f l, .plain f (by simp) (by simpa using hj)⟩

/-! Selections. -/

/-- What the D-port arbiter selects waits (R168). -/
theorem State.dSelect_waits {d : DSource} (h : s.dSelect = some d) : s.dWaits d = true := by
  unfold State.dSelect at h
  split at h
  · cases h; assumption
  · split at h
    · cases h
    · cases h; simp_all [State.dWaits]

/-- A selection that stands at the D-port: the port is UP, its transmitter free, the source waits, and it is the
source selected before, or one selected now because that one no longer waits (R168). -/
theorem State.dStanding_spec {d : DSource} (h : s.dStanding = some d) :
    s.dPort.up = true ∧ s.dPort.sending = none ∧ s.dWaits d = true ∧
      (s.dSelected = some d ∨ (∀ x, s.dSelected = some x → s.dWaits x = false) ∧ s.dSelect = some d) := by
  unfold State.dStanding at h
  split at h
  · rename_i hr
    obtain ⟨hu, hs⟩ : s.dPort.up = true ∧ s.dPort.sending = none := by simpa [Port.ready] using hr
    rcases Option.or_eq_some_iff.1 h with h | ⟨h, hc⟩
    · obtain ⟨h, hw⟩ := Option.filter_eq_some_iff.1 h
      exact ⟨hu, hs, hw, .inl h⟩
    · refine ⟨hu, hs, s.dSelect_waits hc, .inr ⟨fun x hx => ?_, hc⟩⟩
      simpa [hx, Option.filter] using h
  · cases h

/-- What the C-port arbiter selects waits (R170). -/
theorem State.cSelect_waits {c : CSource} (h : s.cSelect = some c) : s.cWaits c = true := by
  unfold State.cSelect at h
  split at h
  · split at h
    · cases h; assumption
    · split at h <;> cases h <;> simp_all [State.cWaits]
    · cases h; simp_all [State.cWaits]
    · cases h
  · cases h; simp_all [State.cWaits]

/-- A selection that stands at the C-port, as at the D-port (R170). -/
theorem State.cStanding_spec {c : CSource} (h : s.cStanding = some c) :
    s.cPort.up = true ∧ s.cPort.sending = none ∧ s.cWaits c = true ∧
      (s.cSelected = some c ∨ (∀ x, s.cSelected = some x → s.cWaits x = false) ∧ s.cSelect = some c) := by
  unfold State.cStanding at h
  split at h
  · rename_i hr
    obtain ⟨hu, hs⟩ : s.cPort.up = true ∧ s.cPort.sending = none := by simpa [Port.ready] using hr
    rcases Option.or_eq_some_iff.1 h with h | ⟨h, hc⟩
    · obtain ⟨h, hw⟩ := Option.filter_eq_some_iff.1 h
      exact ⟨hu, hs, hw, .inl h⟩
    · refine ⟨hu, hs, s.cSelect_waits hc, .inr ⟨fun x hx => ?_, hc⟩⟩
      simpa [hx, Option.filter] using h
  · cases h

/-- With nothing selected before, the D-port arbiter's choice stands (R168). -/
theorem State.dStanding_fresh (h : s.dPort.ready = true) (hn : s.dSelected = none) : s.dStanding = s.dSelect := by
  simp [State.dStanding, h, hn]

/-- With nothing selected before, the C-port arbiter's choice stands (R170). -/
theorem State.cStanding_fresh (h : s.cPort.ready = true) (hn : s.cSelected = none) : s.cStanding = s.cSelect := by
  simp [State.cStanding, h, hn]

/-- Once the arbiters have selected, their selections stand (R168, R170). -/
theorem State.select_standing : s.select.dStanding = s.dStanding ∧ s.select.cStanding = s.cStanding := by
  constructor
  · symm
    cases hd : s.dStanding with
    | none =>
      unfold State.dStanding at hd ⊢
      split at hd
      · rename_i hr
        have hc := (Option.or_eq_none_iff.1 hd).2
        have hr' : s.select.dPort.ready = true := hr
        have hs : s.select.dSelected = none := by
          change s.dStanding = none
          unfold State.dStanding
          rw [if_pos hr, hd]
        rw [if_pos hr', hs]
        exact hc.symm
      · rename_i hr
        have hr' : ¬s.select.dPort.ready = true := hr
        rw [if_neg hr']
    | some d =>
      obtain ⟨hu, hs, hw, _⟩ := s.dStanding_spec hd
      have hr : s.select.dPort.ready = true := by simp [Port.ready, hu, hs]
      have hw' : s.select.dWaits d = true := by cases d <;> exact hw
      unfold State.dStanding
      rw [if_pos hr]
      simp [hd, Option.filter, hw']
  · symm
    cases hd : s.cStanding with
    | none =>
      unfold State.cStanding at hd ⊢
      split at hd
      · rename_i hr
        have hc := (Option.or_eq_none_iff.1 hd).2
        have hr' : s.select.cPort.ready = true := hr
        have hs : s.select.cSelected = none := by
          change s.cStanding = none
          unfold State.cStanding
          rw [if_pos hr, hd]
        rw [if_pos hr', hs]
        exact hc.symm
      · rename_i hr
        have hr' : ¬s.select.cPort.ready = true := hr
        rw [if_neg hr']
    | some d =>
      obtain ⟨hu, hs, hw, _⟩ := s.cStanding_spec hd
      have hr : s.select.cPort.ready = true := by simp [Port.ready, hu, hs]
      have hw' : s.select.cWaits d = true := by cases d <;> exact hw
      unfold State.cStanding
      rw [if_pos hr]
      simp [hd, Option.filter, hw']

/-! The departures that the selections are. -/

/-- A departure on the D-port touches what `departD_frame` says, and nothing where no selection stands (R169). -/
theorem State.leaveD_frame : ∃ sending dfq channels groups injectionCounter malformed blocked injected,
    s.leaveD =
      { s with
        dPort := { s.dPort with sending }, dfq, channels, report := s.report.handAll groups, injectionCounter
        monitor :=
          { s.monitor with malformedCommand := malformed, blockedEntry := blocked, injectedFrame := injected } } ∧
    dfq <:+ s.dfq ∧ s.DSends s.dfq sending := by
  unfold State.leaveD
  split
  · rename_i h
    obtain ⟨channels, hi, _⟩ := s.departInjection_frame
    exact ⟨_, s.dfq, channels, [], _, _, _, _, hi, List.suffix_refl _, .injected (s.dStanding_spec h).2.2.1⟩
  · exact State.departD_frame s.dfq s true
  · exact ⟨s.dPort.sending, s.dfq, s.channels, [], s.injectionCounter, s.monitor.malformedCommand,
      s.monitor.blockedEntry, s.monitor.injectedFrame, rfl, List.suffix_refl _, .nothing⟩

/-- A departure on the C-port touches the transmitter, the source's queue, the marker and one counter (R171). -/
theorem State.leaveC_frame : ∃ sending responses ufq report marker reports,
    s.leaveC =
      { s with
        cPort := { s.cPort with sending }, responses, ufq, report, marker
        monitor := { s.monitor with reportFrame := reports } } ∧
    responses <:+ s.responses ∧ ufq <:+ s.ufq ∧
    (report = s.report ∨ s.report.offer.isSome = true ∧ report = s.report.depart s.active.policy.retransmitMs) := by
  unfold State.leaveC
  split
  · unfold State.departResponse
    split
    · rename_i f rest h
      exact ⟨some f, rest, s.ufq, s.report, s.marker, s.monitor.reportFrame, rfl, h ▸ List.suffix_cons f rest,
        List.suffix_refl _, .inl rfl⟩
    · exact ⟨s.cPort.sending, s.responses, s.ufq, s.report, s.marker, s.monitor.reportFrame, rfl,
        List.suffix_refl _, List.suffix_refl _, .inl rfl⟩
  · unfold State.departReport
    split
    · rename_i number r h
      exact ⟨_, s.responses, s.ufq, _, _, _, rfl, List.suffix_refl _, List.suffix_refl _, .inr ⟨by simp [h], rfl⟩⟩
    · exact ⟨s.cPort.sending, s.responses, s.ufq, s.report, s.marker, s.monitor.reportFrame, rfl,
        List.suffix_refl _, List.suffix_refl _, .inl rfl⟩
  · unfold State.departForward
    split
    · rename_i f rest h
      exact ⟨some f, s.responses, rest, s.report, .forward, s.monitor.reportFrame, rfl, List.suffix_refl _,
        h ▸ List.suffix_cons f rest, .inl rfl⟩
    · exact ⟨s.cPort.sending, s.responses, s.ufq, s.report, s.marker, s.monitor.reportFrame, rfl,
        List.suffix_refl _, List.suffix_refl _, .inl rfl⟩
  · exact ⟨s.cPort.sending, s.responses, s.ufq, s.report, s.marker, s.monitor.reportFrame, rfl,
      List.suffix_refl _, List.suffix_refl _, .inl rfl⟩

/-- Where no selection stands, or its departure is left to its row, nothing leaves the D-port. -/
theorem State.concludeD_stays (h : s.dStanding = none ∨ s.dHeld = true) : s.concludeD = s := by
  rcases h with h | h <;> simp [State.concludeD, State.leaveD, h]

/-- The same at the C-port. -/
theorem State.concludeC_stays (h : s.cStanding = none ∨ s.cHeld = true) : s.concludeC = s := by
  rcases h with h | h <;> simp [State.concludeC, State.leaveC, h]

/-- The request that a command holds: its row's own, or the one that the bytes of a frame to the L16 carry. -/
theorem State.requestIn_iff (c : Instr) (r : Request) : s.requestIn c = some r ↔
    (∃ source tag, c.request? = some (source, tag, r)) ∨
      ∃ bytes f, c = .cPortReceipt bytes ∧ checkFrame bytes = .valid f ∧ f.destination = s.ownAddress ∧
        f.kind = Frame.requestKind ∧ decodeRequest f.payload = some r := by
  cases c with
  | cPortReceipt bytes =>
    cases hb : checkFrame bytes with
    | valid f =>
      by_cases h : f.destination = s.ownAddress ∧ f.kind = Frame.requestKind
      · simp [State.requestIn, Instr.request?, hb, h]
      · simpa [State.requestIn, Instr.request?, hb, h] using fun a b => absurd ⟨a, b⟩ h
    | _ => simp [State.requestIn, Instr.request?, hb]
  | _ => simp [State.requestIn, Instr.request?]

/-- What can meet the departure of a row at the D-port. -/
theorem State.meets_iff (row c : Instr) : s.meets row c = true ↔
    (row = .judgedDeparture ∨ row = .injectedDeparture) ∧
      ((∃ bytes, c = .dPortReceipt bytes) ∨ ∃ channel, s.requestIn c = some (.unlockChannel channel)) ∨
    row = .injectedDeparture ∧ (c = .silenceExpiry ∨ (∃ channel, s.requestIn c = some (.readChannel channel)) ∨
      s.requestIn c = some .commit ∨ s.requestIn c = some .warmRestart) := by
  have judged : (s.requestIn c).any meetsJudged = true ↔ ∃ channel, s.requestIn c = some (.unlockChannel channel) := by
    cases s.requestIn c with
    | none => simp
    | some r => cases r <;> simp [meetsJudged]
  have injected : (s.requestIn c).any meetsInjection = true ↔
      (∃ channel, s.requestIn c = some (.unlockChannel channel)) ∨
        (∃ channel, s.requestIn c = some (.readChannel channel)) ∨ s.requestIn c = some .commit ∨
        s.requestIn c = some .warmRestart := by
    cases s.requestIn c with
    | none => simp
    | some r => cases r <;> simp [meetsInjection]
  cases row
  case judgedDeparture => cases c <;> simp [State.meets, judged]
  case injectedDeparture => cases c <;> simp [State.meets, injected]
  all_goals simp [State.meets]

/-- A departure's row waits exactly where the queue of commands holds it behind nothing but departures and what meets
it. -/
theorem State.rowWaits_iff (row : Instr) (meets : Instr → Bool) (hr : row ∈ departureRows) :
    s.rowWaits row meets = true ↔ ∃ claims rest, s.pending = claims ++ row :: rest ∧
      ∀ c ∈ claims, c ∈ departureRows ∨ meets c = true := by
  unfold State.rowWaits
  rw [List.contains_iff_mem]
  generalize s.pending = l
  induction l with
  | nil => simp
  | cons a l ih =>
    rw [List.takeWhile_cons]
    constructor
    · intro h
      split at h
      · rename_i ha
        rcases List.mem_cons.1 h with rfl | h
        · exact ⟨[], l, rfl, by simp⟩
        · obtain ⟨claims, rest, e, hc⟩ := ih.1 h
          exact ⟨a :: claims, rest, by simp [e], List.forall_mem_cons.2 ⟨by simpa using ha, hc⟩⟩
      · simp at h
    · rintro ⟨_ | ⟨x, claims⟩, rest, e, hc⟩
      · obtain ⟨rfl, rfl⟩ : a = row ∧ l = rest := by simpa using e
        rw [if_pos (by simp [hr])]
        simp
      · obtain ⟨rfl, rfl⟩ : a = x ∧ l = claims ++ row :: rest := by simpa using e
        rw [if_pos (by simpa using hc a (by simp))]
        exact List.mem_cons_of_mem _ (ih.2 ⟨claims, rest, rfl, fun c h => hc c (List.mem_cons_of_mem _ h)⟩)

/-- What each departure, a free order taken and the selections keep, the arbiters keep. -/
theorem State.arbitrate_induct (P : State → Prop) (hs : P s) (hd : ∀ t, P t → P t.leaveD)
    (hc : ∀ t, P t → P t.leaveC) (hf : ∀ t n, P t → P { t with freeCount := n })
    (hsel : ∀ t, P t → P t.select) : P s.arbitrate := by
  have hd' : ∀ t, P t → P t.concludeD := fun t h => by unfold State.concludeD; split <;> simp_all
  have hc' : ∀ t, P t → P t.concludeC := fun t h => by unfold State.concludeC; split <;> simp_all
  unfold State.arbitrate
  apply hsel
  split
  · dsimp only
    split
    · exact hc' _ (hd' _ (hf _ _ hs))
    · exact hd' _ (hc' _ (hf _ _ hs))
  · exact hc' _ (hd' _ hs)

/-- What the arbiters keep, whatever departs: of a port, all but the frame in transmission (R168 to R172). -/
theorem State.arbitrate_keeps :
    s.arbitrate.ownAddress = s.ownAddress ∧ s.arbitrate.active = s.active ∧
      s.arbitrate.generation = s.generation ∧ s.arbitrate.session = s.session ∧
      s.arbitrate.observer = s.observer ∧ s.arbitrate.cache = s.cache ∧
      s.arbitrate.misaddressed = s.misaddressed ∧ s.arbitrate.pending = s.pending ∧
      s.arbitrate.dPort = { s.dPort with sending := s.arbitrate.dPort.sending } ∧
      s.arbitrate.cPort = { s.cPort with sending := s.arbitrate.cPort.sending } := by
  refine s.arbitrate_induct
    (fun t => t.ownAddress = s.ownAddress ∧ t.active = s.active ∧ t.generation = s.generation ∧
      t.session = s.session ∧ t.observer = s.observer ∧ t.cache = s.cache ∧ t.misaddressed = s.misaddressed ∧
      t.pending = s.pending ∧ t.dPort = { s.dPort with sending := t.dPort.sending } ∧
      t.cPort = { s.cPort with sending := t.cPort.sending }) (by simp) ?_ ?_ (fun t _ h => h) (fun t h => h)
  · intro t h
    obtain ⟨_, _, _, _, _, _, _, _, e, _⟩ := t.leaveD_frame
    rw [e]
    obtain ⟨h1, h2, h3, h4, h5, h6, h7, h8, h9, h10⟩ := h
    exact ⟨h1, h2, h3, h4, h5, h6, h7, h8, by simp only; rw [h9], h10⟩
  · intro t h
    obtain ⟨_, _, _, _, _, _, e, _⟩ := t.leaveC_frame
    rw [e]
    obtain ⟨h1, h2, h3, h4, h5, h6, h7, h8, h9, h10⟩ := h
    exact ⟨h1, h2, h3, h4, h5, h6, h7, h8, h9, by simp only; rw [h10]⟩

@[simp] theorem State.arbitrate_ownAddress : s.arbitrate.ownAddress = s.ownAddress := s.arbitrate_keeps.1
@[simp] theorem State.arbitrate_active : s.arbitrate.active = s.active := s.arbitrate_keeps.2.1
@[simp] theorem State.arbitrate_generation : s.arbitrate.generation = s.generation := s.arbitrate_keeps.2.2.1
@[simp] theorem State.arbitrate_session : s.arbitrate.session = s.session := s.arbitrate_keeps.2.2.2.1
@[simp] theorem State.arbitrate_observer : s.arbitrate.observer = s.observer := s.arbitrate_keeps.2.2.2.2.1
@[simp] theorem State.arbitrate_cache : s.arbitrate.cache = s.cache := s.arbitrate_keeps.2.2.2.2.2.1
@[simp] theorem State.arbitrate_misaddressed : s.arbitrate.misaddressed = s.misaddressed :=
  s.arbitrate_keeps.2.2.2.2.2.2.1
@[simp] theorem State.arbitrate_pending : s.arbitrate.pending = s.pending := s.arbitrate_keeps.2.2.2.2.2.2.2.1

/-- A departure that its row does not hold leaves no selection standing at the D-port (R169). -/
theorem State.leaveD_dStanding : s.leaveD.dStanding = none := by
  have sent : ∀ t : State, t.dPort.sending.isSome = true → t.dStanding = none := fun t h => by
    unfold State.dStanding
    rw [if_neg]
    cases hs : t.dPort.sending <;> simp_all [Port.ready]
  have drained : ∀ (l : List Frame) (t : State) (head : Bool),
      (t.departD head l).dStanding = none := by
    intro l
    induction l with
    | nil =>
      intro t head
      unfold State.departD
      simp only
      split
      · exact sent _ rfl
      · rename_i h
        have h' : State.injectionOffered { t with dfq := [] } = false := by simpa using h
        cases hd : State.dStanding { t with dfq := [] } with
        | none => rfl
        | some d =>
          have := (State.dStanding_spec _ hd).2.2.1
          cases d <;> simp_all [State.dWaits]
    | cons f l ih =>
      intro t head
      unfold State.departD
      split
      · exact sent _ rfl
      · split
        · split
          · exact sent _ rfl
          · exact ih _ _
        · exact sent _ rfl
  unfold State.leaveD
  split
  · exact sent _ rfl
  · exact drained _ _ _
  · assumption

/-- The same at the C-port (R171). -/
theorem State.leaveC_cStanding : s.leaveC.cStanding = none := by
  have sent : ∀ (t : State) (f : Frame), (t.sendC f).cStanding = none := fun t f => by
    simp [State.cStanding, Port.ready]
  unfold State.leaveC
  split
  · rename_i h
    have hw := (s.cStanding_spec h).2.2.1
    unfold State.departResponse
    cases hr : s.responses with
    | nil => simp [State.cWaits, hr] at hw
    | cons f rest => exact sent _ _
  · rename_i h
    have hw := (s.cStanding_spec h).2.2.1
    unfold State.departReport
    cases ho : s.report.offer with
    | none => simp [State.cWaits, ho] at hw
    | some o => exact sent _ _
  · rename_i h
    have hw := (s.cStanding_spec h).2.2.1
    unfold State.departForward
    cases hu : s.ufq with
    | nil => simp [State.cWaits, hu] at hw
    | cons f rest => exact sent _ _
  · assumption

/-- A departure on the C-port leaves the D-port's side alone (R171). -/
theorem State.leaveC_dSide : s.leaveC.dStanding = s.dStanding ∧ s.leaveC.dHeld = s.dHeld := by
  obtain ⟨_, _, _, _, _, _, e, _⟩ := s.leaveC_frame
  rw [e]
  exact ⟨rfl, rfl⟩

/-- A departure on the D-port brings no selection about at a C-port that is DOWN or transmits (R163, R170). -/
theorem State.leaveD_cBusy (hb : s.cPort.ready = false) : s.leaveD.cStanding = none := by
  obtain ⟨_, _, _, _, _, _, _, _, e, _⟩ := s.leaveD_frame
  rw [e]
  have hb' : (s.cPort.ready = true) ↔ False := by simp [hb]
  unfold State.cStanding
  simp [hb']

/-- The arbiters leave no selection standing but one whose row waits for it (R168 to R171). -/
theorem State.arbitrate_arbitrated : s.arbitrate.Arbitrated := by
  have key : ∀ t : State, (t.dStanding ≠ none → t.dHeld = true) → (t.cStanding ≠ none → t.cHeld = true) →
      t.select.Arbitrated := by
    intro t hd hc
    obtain ⟨e1, e2⟩ := t.select_standing
    have hr : t.select.dRow = t.dRow := by
      unfold State.dRow
      rw [e1]
      rfl
    have hq : t.select.cRow = t.cRow := by
      unfold State.cRow
      rw [e2]
    have hdh : t.select.dHeld = t.dHeld := by
      unfold State.dHeld
      rw [hr]
      rfl
    have hch : t.select.cHeld = t.cHeld := by
      unfold State.cHeld
      rw [hq]
      rfl
    exact ⟨e1.symm, e2.symm, by rw [e1, hdh]; exact hd, by rw [e2, hch]; exact hc⟩
  have dDone : ∀ t : State, t.concludeD.dStanding ≠ none → t.concludeD.dHeld = true := fun t => by
    unfold State.concludeD
    split
    · exact fun _ => by assumption
    · exact fun h => absurd t.leaveD_dStanding h
  have cDone : ∀ t : State, t.concludeC.cStanding ≠ none → t.concludeC.cHeld = true := fun t => by
    unfold State.concludeC
    split
    · exact fun _ => by assumption
    · exact fun h => absurd t.leaveC_cStanding h
  have dKept : ∀ t : State, t.concludeC.dStanding = t.dStanding ∧ t.concludeC.dHeld = t.dHeld := fun t => by
    unfold State.concludeC
    split
    · exact ⟨rfl, rfl⟩
    · exact t.leaveC_dSide
  have dThenC : ∀ t : State, t.concludeD.concludeC.select.Arbitrated := fun t =>
    key _ (by rw [(dKept t.concludeD).1, (dKept t.concludeD).2]; exact dDone t) (cDone _)
  unfold State.arbitrate
  split
  · rename_i hb
    dsimp only
    split
    · exact dThenC _
    · refine key _ (dDone _) fun hne => absurd ?_ hne
      generalize ht : ({ s with freeCount := s.freeCount + 1 } : State) = t
      have hb' : t.bothLeave = true := ht ▸ hb
      simp only [State.bothLeave, Bool.and_eq_true, Bool.not_eq_true'] at hb'
      have hl : t.concludeC = t.leaveC := by simp [State.concludeC, hb'.2]
      have hbusy : t.leaveC.cPort.ready = false := by
        cases hs : t.cStanding with
        | none => simp [hs] at hb'
        | some c =>
          have hw := (t.cStanding_spec hs).2.2.1
          unfold State.leaveC
          rw [hs]
          cases c
          · cases hr : t.responses with
            | nil => simp [State.cWaits, hr] at hw
            | cons f rest => simp [State.departResponse, hr, Port.ready]
          · cases ho : t.report.offer with
            | none => simp [State.cWaits, ho] at hw
            | some o => simp [State.departReport, ho, Port.ready]
          · cases hu : t.ufq with
            | nil => simp [State.cWaits, hu] at hw
            | cons f rest => simp [State.departForward, hu, Port.ready]
      rw [hl]
      unfold State.concludeD
      split
      · exact t.leaveC_cStanding
      · exact State.leaveD_cBusy _ hbusy
  · exact dThenC _

/-! Management. -/

/-- The three ends of a delivered request: a repeat, a drop for lack of room, an execution (R140). -/
theorem State.manage_cases (source tag kind : Byte) (request : Option Request) :
    (∃ e, s.cached source tag = some e ∧ s.manage source tag kind request = s.replay e) ∨
    (s.cached source tag = none ∧ responseCapacity ≤ s.responses.length ∧
      s.manage source tag kind request =
        { s with monitor := { s.monitor with requestDropped := s.monitor.requestDropped + 1 } }) ∨
    (s.cached source tag = none ∧ s.responses.length < responseCapacity ∧
      s.manage source tag kind request = s.executeRequest source tag kind request) := by
  unfold State.manage
  cases hc : s.cached source tag with
  | some e => exact .inl ⟨e, rfl, rfl⟩
  | none =>
    by_cases hr : s.responses.length < responseCapacity
    · exact .inr (.inr ⟨rfl, hr, by simp [hr]⟩)
    · exact .inr (.inl ⟨rfl, by omega, by simp [hr]⟩)

/-- The lease after an executed request (R148). -/
theorem State.renewLease_eq (source : Byte) :
    s.renewLease source =
      { s with
        session := s.session.map fun held => if held.holder = source then { held with lease := leaseTicks } else held } := by
  unfold State.renewLease
  split
  · rename_i session hs
    split
    · rename_i h
      rw [hs, Option.map_some, if_pos h]
    · rename_i h
      rw [hs, Option.map_some, if_neg h, ← hs]
  · rename_i hs
    rw [hs, Option.map_none, ← hs]

/-- The end of an execution (R139, R140, R144, R148). -/
theorem Reply.finish_eq (r : Reply) (source tag kind : Byte) :
    r.finish source tag kind =
      { r.state with
        session :=
          r.state.session.map fun held =>
            if held.holder = source then { held with lease := leaseTicks } else held
        cache :=
          cacheInsert r.state.cache
            { source, tag, response := responseFrame r.state.ownAddress source tag kind r.status r.results }
        responses :=
          r.state.responses ++ [responseFrame r.state.ownAddress source tag kind r.status r.results] } := by
  unfold Reply.finish
  simp only [State.renewLease_eq]

/-- A request under the authority check is turned away unchanged, or acts in the holder's session (R147). -/
theorem State.underSession_cases (source : Byte) (act : Session → Reply) :
    (s.session = none ∧ s.underSession source act = s.answer .noSession) ∨
    (∃ session, s.session = some session ∧ session.holder ≠ source ∧ s.underSession source act = s.answer .held) ∨
    (∃ session, s.session = some session ∧ session.holder = source ∧ s.underSession source act = act session) := by
  unfold State.underSession
  cases hs : s.session with
  | none => exact .inl ⟨rfl, rfl⟩
  | some session =>
    by_cases hh : session.holder = source
    · exact .inr (.inr ⟨session, rfl, hh, by simp [hh]⟩)
    · exact .inr (.inl ⟨session, rfl, hh, by simp [hh]⟩)

/-- The cache after an insertion: at most four entries, and still one per source (R143, R144). -/
theorem cacheInsert_spec (cache : List CacheEntry) (e : CacheEntry) (h : (cache.map CacheEntry.source).Nodup) :
    (cacheInsert cache e).length ≤ cacheCapacity ∧ ((cacheInsert cache e).map CacheEntry.source).Nodup ∧
      (cacheInsert cache e).head? = some e ∧ ∀ x ∈ cacheInsert cache e, x = e ∨ x ∈ cache := by
  unfold cacheInsert
  refine ⟨by simp, ?_, rfl, ?_⟩
  · rw [List.map_take]
    refine List.Nodup.sublist (List.take_sublist _ _) ?_
    rw [List.map_cons, List.nodup_cons]
    refine ⟨?_, h.sublist (List.Sublist.map _ List.filter_sublist)⟩
    intro hm
    obtain ⟨x, hx, hxe⟩ := List.mem_map.1 hm
    have := (List.mem_filter.1 hx).2
    simp [hxe] at this
  · intro x hx
    rcases List.mem_cons.1 (List.mem_of_mem_take hx) with rfl | hx
    · exact .inl rfl
    · exact .inr (List.mem_filter.1 hx).1

end Sys2Proof.Machine
end

