-- ==== Sys2Proof/Laws/PerInstr.lean ====
section
/-! SUPPORT. Statements for all commands, one lemma per constructor of `Instr`. `RequestCoded`: a request row's
request has a code of 10.4, 01H to 10H, a payload that begins with it and fits a frame, and is well formed exactly
when the row is. -/

namespace Sys2Proof.Laws.RequestCoded

/-- What a request row carries (10.4, R141, R164). -/
def Statement (i : Instr) : Prop :=
  ∀ source tag r, i.request? = some (source, tag, r) →
    1 ≤ r.code.toNat ∧ r.code.toNat ≤ 16 ∧ r.payload.head? = some r.code ∧ r.payload.length ≤ 96 ∧
      i.wellFormed = r.wellFormed

/-- A profile record takes at most 35 bytes with its flags (10.4). -/
theorem profile_length (p : Profile) : p.bytes.length ≤ 35 := by
  unfold Profile.bytes Profile.fieldBytes motionBytes measureBytes
  cases p.motion <;> cases p.measure <;> simp [bytes2, bytes4]

/-- The request-kind codes are 01H to 10H (10.4). -/
theorem code_range (r : Request) : 1 ≤ r.code.toNat ∧ r.code.toNat ≤ 16 := by
  cases r <;> simp [Request.code]

/-- Every request fits the 96 payload bytes of a frame (R164). -/
theorem payload_length (r : Request) : r.payload.length ≤ 96 := by
  cases r with
  | writeProfile slot profile =>
    have := profile_length profile
    simp only [Request.payload, Request.arguments, List.length_cons]
    omega
  | _ => simp [Request.payload, Request.arguments, Policy.bytes, bytes2]

theorem coldReset (straps : BitVec 3) : Statement (.coldReset straps) := by
  intro _ _ _ h
  simp [Instr.request?] at h

theorem linkLossD : Statement (.linkLossD) := by
  intro _ _ _ h
  simp [Instr.request?] at h

theorem linkLossC : Statement (.linkLossC) := by
  intro _ _ _ h
  simp [Instr.request?] at h

theorem linkReturn (port : PortName) : Statement (.linkReturn port) := by
  intro _ _ _ h
  simp [Instr.request?] at h

theorem cPortReceipt (bytes : List Byte) : Statement (.cPortReceipt bytes) := by
  intro _ _ _ h
  simp [Instr.request?] at h

theorem dPortReceipt (bytes : List Byte) : Statement (.dPortReceipt bytes) := by
  intro _ _ _ h
  simp [Instr.request?] at h

theorem judgedDeparture : Statement (.judgedDeparture) := by
  intro _ _ _ h
  simp [Instr.request?] at h

theorem dPortDeparture : Statement (.dPortDeparture) := by
  intro _ _ _ h
  simp [Instr.request?] at h

theorem injectedDeparture : Statement (.injectedDeparture) := by
  intro _ _ _ h
  simp [Instr.request?] at h

theorem responseDeparture : Statement (.responseDeparture) := by
  intro _ _ _ h
  simp [Instr.request?] at h

theorem reportDeparture : Statement (.reportDeparture) := by
  intro _ _ _ h
  simp [Instr.request?] at h

theorem ufqDeparture : Statement (.ufqDeparture) := by
  intro _ _ _ h
  simp [Instr.request?] at h

theorem transmissionComplete (port : PortName) : Statement (.transmissionComplete port) := by
  intro _ _ _ h
  simp [Instr.request?] at h

theorem silenceExpiry : Statement (.silenceExpiry) := by
  intro _ _ _ h
  simp [Instr.request?] at h

theorem retransmitExpiry : Statement (.retransmitExpiry) := by
  intro _ _ _ h
  simp [Instr.request?] at h

theorem leaseExpiry : Statement (.leaseExpiry) := by
  intro _ _ _ h
  simp [Instr.request?] at h

theorem identify (source tag : Byte) : Statement (.identify source tag) := by
  intro source' tag' r h
  simp only [Instr.request?, Option.some.injEq, Prod.mk.injEq] at h
  obtain ⟨rfl, rfl, rfl⟩ := h
  exact ⟨(code_range _).1, (code_range _).2, rfl, payload_length _, rfl⟩

theorem readChannel (source tag channel : Byte) : Statement (.readChannel source tag channel) := by
  intro source' tag' r h
  simp only [Instr.request?, Option.some.injEq, Prod.mk.injEq] at h
  obtain ⟨rfl, rfl, rfl⟩ := h
  exact ⟨(code_range _).1, (code_range _).2, rfl, payload_length _, rfl⟩

theorem readProfile (source tag : Byte) (bank : BankName) (slot : Byte) : Statement (.readProfile source tag bank slot) := by
  intro source' tag' r h
  simp only [Instr.request?, Option.some.injEq, Prod.mk.injEq] at h
  obtain ⟨rfl, rfl, rfl⟩ := h
  exact ⟨(code_range _).1, (code_range _).2, rfl, payload_length _, rfl⟩

theorem readMap (source tag : Byte) (bank : BankName) : Statement (.readMap source tag bank) := by
  intro source' tag' r h
  simp only [Instr.request?, Option.some.injEq, Prod.mk.injEq] at h
  obtain ⟨rfl, rfl, rfl⟩ := h
  exact ⟨(code_range _).1, (code_range _).2, rfl, payload_length _, rfl⟩

theorem readPolicy (source tag : Byte) (bank : BankName) : Statement (.readPolicy source tag bank) := by
  intro source' tag' r h
  simp only [Instr.request?, Option.some.injEq, Prod.mk.injEq] at h
  obtain ⟨rfl, rfl, rfl⟩ := h
  exact ⟨(code_range _).1, (code_range _).2, rfl, payload_length _, rfl⟩

theorem readCounters (source tag : Byte) (group : CounterGroup) (clear : Bool) : Statement (.readCounters source tag group clear) := by
  intro source' tag' r h
  simp only [Instr.request?, Option.some.injEq, Prod.mk.injEq] at h
  obtain ⟨rfl, rfl, rfl⟩ := h
  exact ⟨(code_range _).1, (code_range _).2, rfl, payload_length _, rfl⟩

theorem openSession (source tag : Byte) : Statement (.openSession source tag) := by
  intro source' tag' r h
  simp only [Instr.request?, Option.some.injEq, Prod.mk.injEq] at h
  obtain ⟨rfl, rfl, rfl⟩ := h
  exact ⟨(code_range _).1, (code_range _).2, rfl, payload_length _, rfl⟩

theorem writeProfile (source tag slot : Byte) (profile : Profile) : Statement (.writeProfile source tag slot profile) := by
  intro source' tag' r h
  simp only [Instr.request?, Option.some.injEq, Prod.mk.injEq] at h
  obtain ⟨rfl, rfl, rfl⟩ := h
  exact ⟨(code_range _).1, (code_range _).2, rfl, payload_length _, rfl⟩

theorem clearProfile (source tag slot : Byte) : Statement (.clearProfile source tag slot) := by
  intro source' tag' r h
  simp only [Instr.request?, Option.some.injEq, Prod.mk.injEq] at h
  obtain ⟨rfl, rfl, rfl⟩ := h
  exact ⟨(code_range _).1, (code_range _).2, rfl, payload_length _, rfl⟩

theorem writeMap (source tag : Byte) (entries : Vector Byte 16) : Statement (.writeMap source tag entries) := by
  intro source' tag' r h
  simp only [Instr.request?, Option.some.injEq, Prod.mk.injEq] at h
  obtain ⟨rfl, rfl, rfl⟩ := h
  exact ⟨(code_range _).1, (code_range _).2, rfl, payload_length _, rfl⟩

theorem writePolicy (source tag : Byte) (policy : Policy) : Statement (.writePolicy source tag policy) := by
  intro source' tag' r h
  simp only [Instr.request?, Option.some.injEq, Prod.mk.injEq] at h
  obtain ⟨rfl, rfl, rfl⟩ := h
  exact ⟨(code_range _).1, (code_range _).2, rfl, payload_length _, rfl⟩

theorem commit (source tag : Byte) : Statement (.commit source tag) := by
  intro source' tag' r h
  simp only [Instr.request?, Option.some.injEq, Prod.mk.injEq] at h
  obtain ⟨rfl, rfl, rfl⟩ := h
  exact ⟨(code_range _).1, (code_range _).2, rfl, payload_length _, rfl⟩

theorem closeSession (source tag : Byte) : Statement (.closeSession source tag) := by
  intro source' tag' r h
  simp only [Instr.request?, Option.some.injEq, Prod.mk.injEq] at h
  obtain ⟨rfl, rfl, rfl⟩ := h
  exact ⟨(code_range _).1, (code_range _).2, rfl, payload_length _, rfl⟩

theorem unlockChannel (source tag channel : Byte) : Statement (.unlockChannel source tag channel) := by
  intro source' tag' r h
  simp only [Instr.request?, Option.some.injEq, Prod.mk.injEq] at h
  obtain ⟨rfl, rfl, rfl⟩ := h
  exact ⟨(code_range _).1, (code_range _).2, rfl, payload_length _, rfl⟩

theorem ackReports (source tag : Byte) (number : Half) : Statement (.ackReports source tag number) := by
  intro source' tag' r h
  simp only [Instr.request?, Option.some.injEq, Prod.mk.injEq] at h
  obtain ⟨rfl, rfl, rfl⟩ := h
  exact ⟨(code_range _).1, (code_range _).2, rfl, payload_length _, rfl⟩

theorem warmRestart (source tag : Byte) : Statement (.warmRestart source tag) := by
  intro source' tag' r h
  simp only [Instr.request?, Option.some.injEq, Prod.mk.injEq] at h
  obtain ⟨rfl, rfl, rfl⟩ := h
  exact ⟨(code_range _).1, (code_range _).2, rfl, payload_length _, rfl⟩

end Sys2Proof.Laws.RequestCoded
end

