-- ==== Sys2Proof/Laws/Requests.lean ====
section
/-! SUPPORT. Management requests: what a delivered request comes to, and the byte lemmas of its layouts. -/

namespace Sys2Proof

/-! Bytes. -/

theorem nat2_bytes2 (n : Nat) (h : n < 65536) : nat2 (BitVec.ofNat 8 (n / 256)) (BitVec.ofNat 8 n) = n := by
  simp only [nat2, BitVec.toNat_ofNat]
  omega

theorem nat4_bytes4 (n : Nat) (h : n < 4294967296) :
    nat4 (BitVec.ofNat 8 (n / 16777216)) (BitVec.ofNat 8 (n / 65536)) (BitVec.ofNat 8 (n / 256)) (BitVec.ofNat 8 n) =
      n := by
  simp only [nat4, nat2, BitVec.toNat_ofNat]
  omega

theorem bytes2_nat2 (hi lo : Byte) : bytes2 (nat2 hi lo) = [hi, lo] := by
  have h1 := hi.isLt
  have h2 := lo.isLt
  simp only [bytes2, nat2, List.cons.injEq, and_true]
  constructor <;> apply BitVec.eq_of_toNat_eq <;> simp only [BitVec.toNat_ofNat] <;> omega

theorem nat2_lt (hi lo : Byte) : nat2 hi lo < 65536 := by
  have h1 := hi.isLt
  have h2 := lo.isLt
  simp only [nat2]
  omega

theorem bytes4_nat4 (a b c d : Byte) : bytes4 (nat4 a b c d) = [a, b, c, d] := by
  have h1 := a.isLt
  have h2 := b.isLt
  have h3 := c.isLt
  have h4 := d.isLt
  simp only [bytes4, nat4, nat2, List.cons.injEq, and_true]
  refine ⟨?_, ?_, ?_, ?_⟩ <;> apply BitVec.eq_of_toNat_eq <;> simp only [BitVec.toNat_ofNat] <;> omega

theorem nat4_lt (a b c d : Byte) : nat4 a b c d < 4294967296 := by
  have h1 := a.isLt
  have h2 := b.isLt
  have h3 := c.isLt
  have h4 := d.isLt
  simp only [nat4, nat2]
  omega

theorem half2_bytes2 (h : Half) : half2 (BitVec.ofNat 8 (h.toNat / 256)) (BitVec.ofNat 8 h.toNat) = h := by
  rw [half2, nat2_bytes2 _ h.isLt, BitVec.ofNat_toNat, BitVec.setWidth_eq]

theorem bytes2_half2 (hi lo : Byte) : bytes2 (half2 hi lo).toNat = [hi, lo] := by
  rw [half2, BitVec.toNat_ofNat, Nat.mod_eq_of_lt (nat2_lt hi lo), bytes2_nat2]

theorem ofNat_toNat_byte (b : Byte) : BitVec.ofNat 8 b.toNat = b := by simp

end Sys2Proof

namespace Sys2Proof.Machine

variable (s : State)

/-! A request counted. -/

@[simp] theorem State.counted_ownAddress : s.counted.ownAddress = s.ownAddress := rfl
@[simp] theorem State.counted_active : s.counted.active = s.active := rfl
@[simp] theorem State.counted_generation : s.counted.generation = s.generation := rfl
@[simp] theorem State.counted_session : s.counted.session = s.session := rfl
@[simp] theorem State.counted_channels : s.counted.channels = s.channels := rfl
@[simp] theorem State.counted_observer : s.counted.observer = s.observer := rfl
@[simp] theorem State.counted_injectionCounter : s.counted.injectionCounter = s.injectionCounter := rfl
@[simp] theorem State.counted_report : s.counted.report = s.report := rfl
@[simp] theorem State.counted_cache : s.counted.cache = s.cache := rfl
@[simp] theorem State.counted_responses : s.counted.responses = s.responses := rfl
@[simp] theorem State.counted_dfq : s.counted.dfq = s.dfq := rfl
@[simp] theorem State.counted_ufq : s.counted.ufq = s.ufq := rfl
@[simp] theorem State.counted_cPort : s.counted.cPort = { s.cPort with received := s.cPort.received + 1 } := rfl
@[simp] theorem State.counted_dPort : s.counted.dPort = s.dPort := rfl
@[simp] theorem State.counted_misaddressed : s.counted.misaddressed = s.misaddressed := rfl
@[simp] theorem State.counted_marker : s.counted.marker = s.marker := rfl
@[simp] theorem State.counted_dSelected : s.counted.dSelected = s.dSelected := rfl
@[simp] theorem State.counted_cSelected : s.counted.cSelected = s.cSelected := rfl
@[simp] theorem State.counted_monitor : s.counted.monitor = 
    { s.monitor with requestExecuted := s.monitor.requestExecuted + 1 } := rfl
@[simp] theorem State.counted_freeCount : s.counted.freeCount = s.freeCount := rfl
@[simp] theorem State.counted_pending : s.counted.pending = s.pending := rfl

@[simp] theorem State.channel_counted (ch : ChannelId) : s.counted.channel ch = s.channel ch := rfl

/-- An answer that changes nothing comes to the bookkeeping of the request alone (R140, R144, R148). -/
theorem State.answer_finish (source tag kind : Byte) (status : Status) (results : List Byte) :
    ((s.counted.answer status results).finish source tag kind).arbitrate =
      s.answered source tag kind status results := by
  rw [Reply.finish_eq]
  rfl

/-- A request row that is neither a repeat nor turned away: counted, performed, finished (R140). -/
theorem State.receiveRequest_delivered (source tag : Byte) (r : Request) (h : s.Deliverable source tag) :
    s.receiveRequest source tag r = ((s.counted.perform source r).finish source tag r.code).arbitrate := by
  obtain ⟨h1, h2, h3⟩ := h
  have hc : s.countReceivedC.cached source tag = none := h2
  have hr : s.countReceivedC.responses.length < responseCapacity := h3
  unfold State.receiveRequest
  rw [if_pos h1]
  rcases s.countReceivedC.manage_cases source tag r.code (some r) with ⟨e, he, _⟩ | ⟨_, hn, _⟩ | ⟨_, _, h'⟩
  · rw [hc] at he; simp at he
  · omega
  · rw [h']; rfl

/-- A request row on a DOWN port is not received (R163). -/
theorem State.receiveRequest_down (source tag : Byte) (r : Request) (h : s.cPort.up = false) :
    s.receiveRequest source tag r = s := by
  unfold State.receiveRequest
  simp [h]

/-- The authority check passes for the holder (R147). -/
theorem State.underSession_holder (source : Byte) (act : Session → Reply) (session : Session)
    (h : s.Holds source session) : s.underSession source act = act session := by
  unfold State.underSession
  rw [h.1]
  simp [h.2]

/-- The authority check passes for the holder in the counted state, too (R147). -/
theorem State.counted_underSession (source : Byte) (act : Session → Reply) (session : Session)
    (h : s.Holds source session) : s.counted.underSession source act = act session :=
  s.counted.underSession_holder source act session h

/-- A request row is the handling of its request. -/
theorem exec_request {i : Instr} {source tag : Byte} {r : Request} (h : i.request? = some (source, tag, r)) :
    exec i s = .next (s.receiveRequest source tag r) := by
  cases i <;> simp only [Instr.request?, Option.some.injEq, Prod.mk.injEq, reduceCtorEq] at h <;>
    obtain ⟨rfl, rfl, rfl⟩ := h <;> rfl

/-- A request row that is neither a repeat nor turned away, at the dispatch. -/
theorem exec_delivered {i : Instr} {source tag : Byte} {r : Request} (h : i.request? = some (source, tag, r))
    (hd : s.Deliverable source tag) :
    exec i s = .next ((s.counted.perform source r).finish source tag r.code).arbitrate := by
  rw [exec_request s h, s.receiveRequest_delivered source tag r hd]

/-- A slot byte in range names its slot. -/
theorem slotOf_eq {b : Byte} {i : SlotIndex} (h : b.toNat = i.val) : slotOf b = some i := by
  unfold slotOf
  simp only [h, i.isLt, dif_pos]

theorem slotOf_none {b : Byte} (h : 32 ≤ b.toNat) : slotOf b = none := by
  unfold slotOf
  rw [dif_neg]
  omega

/-- A channel byte in range names its channel. -/
theorem channelOf_eq {b : Byte} {ch : ChannelId} (h : b.toNat = ch.val) : channelOf b = some ch := by
  unfold channelOf
  simp only [h, ch.isLt, dif_pos]

theorem channelOf_none {b : Byte} (h : 16 ≤ b.toNat) : channelOf b = none := by
  unfold channelOf
  rw [dif_neg]
  omega

end Sys2Proof.Machine
end

