-- ==== Sys2Proof/Tests/Slice0.lean ====
section
/-! SUPPORT. The model's own tests: the well-formedness smoke, the spec's worked examples step by step, and one
witness for the hypotheses of each statement in Certificates/Slice0/Obligations.lean. -/

namespace Sys2Proof.Tests

set_option Elab.async false

open Sys2Proof.Machine

/-! Small states. -/

/-- The state an outcome holds; `s` where it holds none. -/
def after (s : State) (c : Instr) : State :=
  match exec c s with
  | .next t => t
  | .fault _ => s
  | .refused _ => s

/-- A port that is UP. -/
def upPort : Port := { Port.reset with up := true }

/-- A port that is UP with a frame in transmission. -/
def busyPort (f : Frame) : Port := { upPort with sending := some f }

/-- Both ports UP after reset. -/
def up : State := { State.reset with cPort := upPort, dPort := upPort }

/-- The profile of chapter 3's example. -/
def profile : Profile :=
  { openLevel := 200, openDeadline := 10, hitLevel := 900, hitDeadline := 60, ocLevel := 1500, settle := 2
    gapLimit := 2, lockAfter := 3
    motion := some
      { peakDrop := 80, valleyRise := 60, reactionMin := 5, reactionMax := 30, travelMin := 2, travelMax := 15 }
    measure := none }

/-- The measure group of 11.1. -/
def measureGroup : MeasureGroup := { window := 4, rMin := 20000, rMax := 26000 }

/-- Tables with the profile in slot 5, mapped to channel 6, and a report sink 20H. -/
def tables : Bank :=
  { slots := Vector.ofFn fun i => if i.val = 5 then some profile else none
    map := Vector.ofFn fun ch => if ch.val = 6 then some 5 else none
    policy := { defaultPolicy with sinkAddress := 0x20#8, supplyLow := 21000, supplyOk := 22500 } }

/-- A session of 10H on those tables. -/
def session : Session := { holder := 0x10#8, lease := 2000, shadow := tables }

/-- The snapshot of channel 6. -/
def snapshot : Snapshot := { profile, index := 5, generation := 3 }

/-- Channel 6 energized, tracked from index 1000. -/
def tracked : Channel :=
  { Channel.reset with
    energized := true, snapshot := some snapshot, episode := some (Episode.start profile 1000), opened := 1 }

/-- A TRIPPED channel whose injection is pending. -/
def tripped : Channel :=
  { Channel.reset with
    disposition := .tripped, energized := true, pendingInjection := true, snapshot := some snapshot, failCount := 1 }

/-- A LOCKED channel, released. -/
def locked : Channel := { Channel.reset with disposition := .locked, failCount := 3 }

/-- The stream alive at index 1000. -/
def alive : Observer := { reference := some 1000, supply := .ok, activity := .active, silenceTimer := some 20 }

/-- A part at work: channel 6 tracked, channel 9 LOCKED, a session, a sink, three responses waiting. -/
def work : State :=
  { up with
    active := tables, generation := 3, session := some session, observer := alive
    channels := Vector.ofFn fun ch => if ch.val = 6 then tracked else if ch.val = 9 then locked else Channel.reset
    report := { ReportQueue.reset with sender := .ready } }

/-- The part at work while its C-port transmits, so that what waits for that port stands still. -/
def quiet : State := { work with cPort := { upPort with sending := some (Frame.build 0x07#8 0x01#8 0x10#8 0x07#8 []) } }

/-- A frame on the line with a correct check sequence. -/
def line (kind destination : Byte) (payload : List Byte) : List Byte :=
  (Frame.build kind destination 0x10#8 0x07#8 payload).bytes

/-- The frame that `line` puts on the line. -/
def lineFrame (kind destination : Byte) (payload : List Byte) : Frame :=
  Frame.build kind destination 0x10#8 0x07#8 payload

/-- A SAMPLE payload with one entry, for channel 6 (10.3). -/
def sample6 (index supply current : Nat) : List Byte :=
  bytes2 index ++ bytes2 supply ++ [0x00#8, 0x40#8] ++ bytes2 current ++ bytes2 24000

/-- A COMMAND frame to the driver (10.2). -/
def command (payload : List Byte) : Frame := lineFrame Frame.commandKind 0x01#8 payload

/-- A frame that is not judged. -/
def plain : Frame := lineFrame 0x07#8 0x01#8 []

/-- A record for a window. -/
def sent (number : Half) : SentRecord := { number, record := .driverBack }

/-- Unsent records, none of them a PASS VERDICT. -/
def unsentRecords (n : Nat) : List Record := List.replicate n .driverBack

/-! Well-formedness: an ill-formed term for each check, refused. -/

def motion0 : MotionGroup :=
  { peakDrop := 1, valleyRise := 1, reactionMin := 0, reactionMax := 1, travelMin := 0, travelMax := 1 }

theorem test_wf_motion : motion0.fits = true ∧ { motion0 with peakDrop := 65536 }.fits = false ∧
    { motion0 with valleyRise := 65536 }.fits = false ∧ { motion0 with reactionMin := 65536 }.fits = false ∧
    { motion0 with reactionMax := 65536 }.fits = false ∧ { motion0 with travelMin := 65536 }.fits = false ∧
    { motion0 with travelMax := 65536 }.fits = false := by decide +kernel

theorem test_wf_measure : measureGroup.fits = true ∧ { measureGroup with window := 256 }.fits = false ∧
    { measureGroup with rMin := 4294967296 }.fits = false ∧ { measureGroup with rMax := 4294967296 }.fits = false := by
  decide +kernel

theorem test_wf_profile : profile.fits = true ∧ { profile with openLevel := 65536 }.fits = false ∧
    { profile with openDeadline := 256 }.fits = false ∧ { profile with hitLevel := 65536 }.fits = false ∧
    { profile with hitDeadline := 65536 }.fits = false ∧ { profile with ocLevel := 65536 }.fits = false ∧
    { profile with settle := 256 }.fits = false ∧ { profile with gapLimit := 256 }.fits = false ∧
    { profile with lockAfter := 256 }.fits = false ∧
    { profile with motion := some { motion0 with travelMax := 65536 } }.fits = false ∧
    { profile with measure := some { measureGroup with window := 256 } }.fits = false := by decide +kernel

theorem test_wf_policy : defaultPolicy.fits = true ∧ { defaultPolicy with retransmitMs := 65536 }.fits = false ∧
    { defaultPolicy with silenceMs := 256 }.fits = false ∧ { defaultPolicy with supplyLow := 65536 }.fits = false ∧
    { defaultPolicy with supplyOk := 65536 }.fits = false := by decide +kernel

theorem test_wf_instr :
    (Instr.writeProfile 0x10#8 0#8 0#8 { profile with settle := 256 }).wellFormed = false ∧
      (Instr.writePolicy 0x10#8 0#8 { defaultPolicy with silenceMs := 256 }).wellFormed = false ∧
      (Instr.writeProfile 0x10#8 0#8 0#8 profile).wellFormed = true := by decide +kernel

/-! Frames and layouts (chapter 10). -/

/-- R180: the nine ASCII bytes "123456789" give 29B1H. -/
theorem test_crc : crc16 [0x31, 0x32, 0x33, 0x34, 0x35, 0x36, 0x37, 0x38, 0x39] = 0x29B1#16 := by decide +kernel

/-- 11.2: RELEASE of channel 9 is the payload 01H 92H 00H. -/
theorem test_injected_payload :
    commandPayload [{ channel := 9, action := releaseAction, argument := 0 }] = [0x01, 0x92, 0x00] := by decide +kernel

/-- R27: a repeated channel, a count of 17 and a short payload are malformed; chapter 2's frame is not. -/
theorem test_command_form : readCommand [0x02, 0x21, 0x3C, 0x22, 0x00] = none ∧ readCommand [0x02, 0x21, 0x3C] = none ∧
    readCommand (0x11 :: List.replicate 34 0) = none ∧
    (readCommand [0x04, 0x21, 0x3C, 0x51, 0x3C, 0xC2, 0x00, 0x97, 0x12]).isSome = true := by decide +kernel

/-- R182: entries in ascending channel order, the current signed. -/
theorem test_sample_form :
    readSample [0x03, 0xE9, 0x5D, 0xC0, 0x00, 0x41, 0xFF, 0xFE, 0x00, 0x01, 0x00, 0x96, 0x00, 0x02] =
      some { index := 1001, supply := 24000, entries := [(0, ⟨-2, 1⟩), (6, ⟨150, 2⟩)] } ∧
    readSample [0x03, 0xE9, 0x5D, 0xC0, 0x00, 0x41, 0xFF, 0xFE, 0x00, 0x01] = none := by decide +kernel

/-- R183: a READ_COUNTERS of group 02H is malformed, ACK_REPORTS 0102H is the number 258. -/
theorem test_request_form : decodeRequest [0x06, 0x02, 0x00] = none ∧
    decodeRequest [0x0F, 0x01, 0x02] = some (.ackReports 258) ∧ decodeRequest [0x01, 0x00] = none ∧
    decodeRequest [0x11] = none := by decide +kernel

/-! Profiles (chapter 1's examples). -/

theorem test_profile_examples :
    { profile with
      openLevel := 400, openDeadline := 20, hitLevel := 350, hitDeadline := 60, ocLevel := 300 }.badField =
        some 0x03#8 ∧
    { profile with openLevel := 400, openDeadline := 120, hitLevel := 900, hitDeadline := 100 }.badField =
      some 0x04#8 ∧
    { profile with motion := none, measure := some { measureGroup with window := 0 } }.badField = some 0x0F#8 ∧
    { profile with motion := some { motion0 with reactionMin := 40, reactionMax := 40 } }.badField = some 0x0C#8 ∧
    { profile with measure := some { measureGroup with rMin := 4000000, rMax := 4000000 } }.badField =
      some 0x11#8 := by decide +kernel

/-- Slot 32 is answered BAD_INDEX, whatever the fields (chapter 1's example). -/
theorem test_write_profile_index :
    (after work (.writeProfile 0x10 1 32 { profile with openLevel := 0 })).cPort.sending.map (fun f => f.payload) =
      some [0x08, 0x02] := by decide +kernel

/-! Episodes (chapter 3's examples and 11.1). -/

/-- The episode of chapter 3's second example: RAMP after the frame at 1028. -/
def ramp28 : Episode :=
  { Episode.start profile 1000 with
    elapsed := 28, seen := 28, openSeen := true, runningMax := some ⟨1026, 650⟩ }

theorem test_one_frame_dip : ramp28.handle profile 1029 (some ⟨500, 0⟩) =
    .stays { ramp28 with
      elapsed := 29, seen := 29, peak := some ⟨1026, 650⟩, runningMin := some ⟨1029, 500⟩, phase := .dip } := by
  decide +kernel

theorem test_one_frame_outcomes :
    ramp28.handle profile 1031 (some ⟨500, 0⟩) =
      .closes { ramp28 with
        elapsed := 31, seen := 29, gap := 2, peak := some ⟨1026, 650⟩, runningMin := some ⟨1031, 500⟩
        phase := .dip } .noMotion none ∧
    ramp28.handle profile 1032 (some ⟨500, 0⟩) =
      .closes { ramp28 with elapsed := 32, seen := 29, gap := 3 } .voidGap none ∧
    ramp28.handle profile 1031 none = .closes { ramp28 with elapsed := 31, gap := 3 } .voidGap none ∧
    ramp28.handle profile 1029 (some ⟨1600, 0⟩) = .trips { ramp28 with elapsed := 29, seen := 29 } ∧
    ramp28.handle profile 1030 none = .stays { ramp28 with elapsed := 30, gap := 2 } := by decide +kernel

/-- Chapter 3's example at 1013: the valley 520 at 1010 is confirmed and CLIMB begins. -/
theorem test_valley_confirmed :
    ({ Episode.start profile 1000 with
        phase := .dip, elapsed := 12, seen := 11, gap := 1, openSeen := true, peak := some ⟨1004, 700⟩
        runningMin := some ⟨1010, 520⟩ }.handle profile 1013 (some ⟨610, 0⟩)) =
      .stays { Episode.start profile 1000 with
        phase := .climb, elapsed := 13, seen := 12, gap := 1, openSeen := true, peak := some ⟨1004, 700⟩
        runningMin := some ⟨1010, 520⟩, valley := some ⟨1010, 520⟩ } := by decide +kernel

/-- Chapter 4 and 11.1: 1000 × 81650 / 3605 is 22649, and a sum of 0 has no resistance. -/
theorem test_resistance : resistance? 3605 81650 = some 22649 ∧ resistance? 0 5 = none ∧
    judgeResistance measureGroup (some 19999) = .resLow ∧ judgeResistance measureGroup (some 20000) = .pass ∧
    judgeResistance measureGroup (some 26001) = .resHigh ∧ judgeResistance measureGroup none = .resHigh := by
  decide +kernel

/-! The report queue (11.4, 11.5). -/

/-- A full queue with a PASS VERDICT among its unsent records, as in 11.4. -/
def passVerdict : Record :=
  .verdict (verdictOf Channel.reset 1 snapshot (Episode.start profile 1000) .pass none)

def fullQueue : ReportQueue :=
  { ReportQueue.reset with
    window := (List.range 8).map fun k => sent (201 + BitVec.ofNat 16 k)
    unsent := .supplyLow 1 :: passVerdict :: .blocked 4 3 :: unsentRecords 37
    cursor := 8, nextSequence := 209, retransmitTimer := some 50, sender := .ready }

/-- TRIP handed: the PASS VERDICT is evicted and counted; BLOCKED of channel 4 handed: coalesced, no loss. -/
theorem test_eviction :
    fullQueue.hand [.driverSilent] =
      { fullQueue with
        unsent := .supplyLow 1 :: .blocked 4 3 :: unsentRecords 37 ++ [.driverSilent], lossCount := 1 } ∧
    fullQueue.hand [.blocked 4 1] =
      { fullQueue with unsent := .supplyLow 1 :: passVerdict :: .blocked 4 4 :: unsentRecords 37 } := by
  decide +kernel

/-- ACK_REPORTS 203 with 4 losses counted: three leave, LOSS takes a place, the cursor is 5. -/
theorem test_acknowledge_with_loss :
    (ReportQueue.acknowledge { fullQueue with lossCount := 4 } 203 50).map
        (fun q : ReportQueue => (q.total, q.cursor, q.lossCount, q.unsent.getLast?, q.retransmitTimer)) =
      some (46, 5, 0, some (.loss 4), some 50) := by decide +kernel

/-- 11.5: an acknowledgement of 303 in mid-round takes the cursor from 2 to 0; 300 names no record. -/
theorem test_acknowledge_mid_round :
    ({ ReportQueue.reset with
        window := [sent 301, sent 302, sent 303, sent 304, sent 305], cursor := 2, retryCount := 1, sender := .ready
        nextSequence := 306, retransmitTimer := some 7 }.acknowledge 303 50) =
      some { ReportQueue.reset with
        window := [sent 304, sent 305], cursor := 0, sender := .ready, nextSequence := 306
        retransmitTimer := some 50 } ∧
    fullQueue.acknowledge 300 50 = none := by decide +kernel

/-! Commands. -/

/-- Chapter 2's example: the frame as it departs, and the channels after it. -/
def judging : State :=
  { quiet with
    channels := Vector.ofFn fun ch =>
      if ch.val = 12 then tracked else if ch.val = 5 then { Channel.reset with disposition := .tripped }
      else if ch.val = 9 then locked else Channel.reset
    active := { tables with map := Vector.ofFn fun ch => if ch.val = 2 then some 5 else none }
    dfq := [command [0x04, 0x21, 0x3C, 0x51, 0x3C, 0xC2, 0x00, 0x97, 0x12]] }

theorem test_judged_departure :
    ((after judging .judgedDeparture).dPort.sending.map fun f => f.payload) =
      some [0x04, 0x21, 0x3C, 0x52, 0x00, 0xC2, 0x00, 0x97, 0x12] ∧
    (after judging .judgedDeparture).report.unsent.map Record.code = [0x05, 0x01] := by decide +kernel

theorem test_judged_channels :
    ((after judging .judgedDeparture).channel 2).snapshot = some snapshot ∧
    ((after judging .judgedDeparture).channel 2).episode = some (Episode.start profile 1000) ∧
    ((after judging .judgedDeparture).channel 5).disposition = .tripped ∧
    ((after judging .judgedDeparture).channel 9).disposition = .locked ∧
    ((after judging .judgedDeparture).channel 12).energized = false ∧
    (after judging .judgedDeparture).monitor.blockedEntry = 1 := by decide +kernel

/-- Chapter 5's example: one injected frame for channels 3 and 11, sequence FEH. -/
theorem test_injected_departure :
    (let s := after
      { work with
        injectionCounter := 0xFE#8
        channels := Vector.ofFn fun ch =>
          if ch.val = 3 then tripped else if ch.val = 11 then { tripped with disposition := .locked } else Channel.reset }
      .injectedDeparture
    (s.dPort.sending.map fun f => (f.sequence, f.payload), s.injectionCounter, (s.channel 11).disposition,
      (s.channel 3).energized, s.monitor.injectedFrame)) =
      (some (0xFE, [0x02, 0x32, 0x00, 0xB2, 0x00]), 0xFF, .locked, false, 1) := by decide +kernel

/-- Chapter 6's example: the supply dip closes the episode VOID_SUPPLY and hands SUPPLY_LOW behind it. -/
theorem test_supply_dip :
    (let s := after quiet (.dPortReceipt (line Frame.sampleKind 0x10 (sample6 1002 20700 0)))
    (s.observer.supply, s.report.unsent.map Record.code, (s.channel 6).neutral)) = (.low, [0x01, 0x07], 1) := by
  decide +kernel

/-- Chapter 6's example: 300 against 405 is a resync, 401 against 401 a duplicate. -/
theorem test_classify : classify (some 405) 300 = .resync ∧ classify (some 401) 401 = .duplicate ∧
    classify (some 401) 403 = .advance ∧ classify none 310 = .absent ∧ classify (some 0) 32767 = .advance ∧
    classify (some 0) 32768 = .resync := by decide +kernel

/-- Chapter 4's second example: a trip outside an episode completes a lock: TRIP, then LOCKED. -/
theorem test_trip_locks :
    (({ Channel.reset with
        energized := true, snapshot := some { snapshot with profile := { profile with lockAfter := 2 } }
        failCount := 1 }.handleFrame 6 1001 (some ⟨1620, 0⟩)).1.disposition,
      ({ Channel.reset with
        energized := true, snapshot := some { snapshot with profile := { profile with lockAfter := 2 } }
        failCount := 1 }.handleFrame 6 1001 (some ⟨1620, 0⟩)).2.map Record.code) = (.locked, [0x02, 0x03]) := by
  decide +kernel

/-- R178: straps 5 give the own address 75H. -/
theorem test_cold_reset : (after work (.coldReset 5)).ownAddress = 0x75#8 ∧
    (after work (.coldReset 5)).session = none := by decide +kernel

/-- The commit of chapter 8's example: generation 7 becomes 8, the session ends, GENERATION is queued. -/
theorem test_commit :
    (let s := after { work with generation := 7 } (.commit 0x10 0x43)
    (s.generation, s.session, s.report.unsent, s.cPort.sending.map fun f => f.payload)) =
      (8, none, [.generation 8], some [0x0C, 0x00, 0x00, 0x08]) := by decide +kernel

/-- 10.5: IDENTIFY names part 4C16H, revision 01H. -/
theorem test_identify :
    (after work (.identify 0x50 1)).cPort.sending.map (fun f => f.payload) =
      some [0x01, 0x00, 0x4C, 0x16, 0x01, 0x70, 0x00, 0x03, 0x01, 0x10, 0x01] := by decide +kernel

/-- R156: UNLOCK_CHANNEL 9 reports OPEN. -/
theorem test_unlock :
    ((after work (.unlockChannel 0x10 1 9)).channel 9).disposition = .open_ ∧
      (after work (.unlockChannel 0x10 1 9)).cPort.sending.map (fun f => f.payload) =
        some [0x0E, 0x00, 0x09, 0x00] := by
  decide +kernel

/-- The queue's front runs and leaves the rest. -/
theorem test_step_front :
    (match step { up with pending := [.linkLossC, .linkLossD] } with
      | .next t => t.cPort.up == false && t.dPort.up && t.pending == [.linkLossD]
      | _ => false) = true := by decide +kernel

/-- R33, R34 and R96: a frame that was selected departs although its channel has tripped since, and cancels the
pending injection. -/
theorem test_selected_frame_cancels :
    (let s := after
      { quiet.setChannel 6 tripped with dfq := [command [0x01, 0x61, 0x3C]], dSelected := some .queueHead }
      .judgedDeparture
    (s.dPort.sending.map fun f => f.payload, (s.channel 6).pendingInjection, (s.channel 6).disposition,
      s.injectionOffered, s.report.unsent)) =
      (some [0x01, 0x62, 0x00], false, .tripped, false, [.blocked 6 1]) := by decide +kernel

/-- R168, R169: a frame placed in the empty DFQ of a free port departs at its receipt, with its effects. -/
theorem test_receipt_departs :
    (let s := after quiet (.cPortReceipt (line 0x01 0x01 [0x01, 0x62, 0x00]))
    (s.dPort.sending, s.dfq, (s.channel 6).energized, s.report.unsent.map Record.code)) =
      (some (command [0x01, 0x62, 0x00]), [], false, [0x01]) := by decide +kernel

/-- R172, R173: at a completion the head departs, so that a link loss behind it abandons the frame and flushes none. -/
theorem test_completion_departs :
    (let s := after { work with dPort := busyPort plain, dfq := [command [0x01, 0x62, 0x00]] }
      (.transmissionComplete .dPort)
    (s.dPort.sending, s.dfq, (s.channel 6).energized, s.dPort.transmitted)) =
      (some (command [0x01, 0x62, 0x00]), [], false, 1) := by decide +kernel

/-- R33, R34, log entry 3: the frame stays selected where its row waits behind a D-port frame, not behind a link
loss. -/
theorem test_left_to_its_row :
    (let s := fun claim : Instr => after { quiet with pending := [claim, .judgedDeparture] }
      (.cPortReceipt (line 0x01 0x01 [0x01, 0x62, 0x00]))
    ((s (.dPortReceipt [])).dSelected, (s (.dPortReceipt [])).dPort.sending, (s .linkLossD).dSelected,
      (s .linkLossD).dPort.sending)) =
      (some .queueHead, none, none, some (command [0x01, 0x62, 0x00])) := by decide +kernel

/-- Channel 6 one fail short of its lock, the D-port free, the C-port in transmission. -/
def locking : State := quiet.setChannel 6 { tracked with failCount := 2 }

/-- R37, R82: the closure locks the channel, its injection left to its row behind UNLOCK_CHANNEL, which then finds it
pending and answers TRIPPED; without the row the injection departs with the closure, and the answer is OPEN. -/
theorem test_closure_meets_unlock :
    (let closed := fun claims => after { locking with pending := claims }
      (.dPortReceipt (line 0x02 0x10 (sample6 1001 24000 1500)))
    let held := closed [.unlockChannel 0x10 1 6, .injectedDeparture]
    let unlocked := fun (s : State) claims =>
      (after { s with pending := claims } (.unlockChannel 0x10 1 6)).responses.map fun f => f.payload
    ((held.channel 6).disposition, held.dSelected, held.dPort.sending, unlocked held [.injectedDeparture],
      unlocked (closed []) [])) =
      (.locked, some .injection, none, [[0x0E, 0x00, 0x06, 0x01]], [[0x0E, 0x00, 0x06, 0x00]]) := by decide +kernel

/-- R104: a frame taken before the expiry starts the timer again, and the expiry does not happen. -/
theorem test_frame_before_expiry :
    (let s := after { work with observer := { alive with silenceTimer := some 0 } } (.dPortReceipt (line 0x03 0x10 []))
    (s.observer.silenceTimer, (after s .silenceExpiry).observer.activity)) = (some 20, .active) := by decide +kernel

/-! Witnesses: for each statement of Certificates/Slice0/Obligations.lean that has hypotheses, concrete states and
operands that meet them together, clause by clause, at boundary values. -/

/-- The three timers with `n` ticks left. -/
def ticking (n : Nat) : State :=
  { work with
    observer := { alive with silenceTimer := some n }, session := some { session with lease := n }
    report := { ReportQueue.reset with
      sender := .ready, window := [sent 1], cursor := 1, nextSequence := 2, retryCount := 4, retransmitTimer := some n } }

def judgedHead : State := { up with dfq := [command [0x01, 0x21, 0x3C]] }

def reporting (q : ReportQueue) : State := { work with report := { q with sender := .ready } }

theorem witness_IdleStepIsAnExpiryThatIsDue :
    { ticking 1 with observer := { alive with silenceTimer := some 0 } }.due = [.silenceExpiry] ∧
    (ticking 0).due = [.silenceExpiry, .retransmitExpiry, .leaseExpiry] ∧ (ticking 1).due = [] ∧
    (ticking 0).pending = [] := by decide +kernel

theorem witness_IdleTickCountsTheTimers :
    (∀ s ∈ [ticking 1, up], s.pending = [] ∧
      s.observer.silenceTimer ≠ some 0 ∧ s.report.retransmitTimer ≠ some 0 ∧ s.leaseDue = false) ∧
    (ticking 1).observer.silenceTimer = some (0 + 1) ∧ (ticking 1).report.retransmitTimer = some (0 + 1) ∧
    (ticking 1).session = some { session with lease := 0 + 1 } ∧ up.observer.silenceTimer = none ∧
    up.session = none ∧ up.report.retransmitTimer = none := by decide +kernel

theorem witness_LinkLossCFlushesAndKeeps : work.cPort.up = true := by decide

theorem witness_LinkLossDFlushesAndSilences : work.dPort.up = true ∧ work.ChannelsSound ∧
    work.observer.activity = .active ∧ up.dPort.up = true ∧ up.ChannelsSound ∧ up.observer.activity = .silent := by
  decide +kernel

theorem witness_LinkReturnMakesThePortUp : State.reset.dPort.sending = none ∧ State.reset.dSelected = none ∧
    State.reset.cPort.sending = none ∧ State.reset.cSelected = none ∧ State.reset.responses = [] := by decide

/-- Both ports: DOWN, free with a source selected before, and free with none. -/
theorem witness_ArbitersSelectWhereASourceWaits : State.reset.dPort.up = false ∧ State.reset.cPort.up = false ∧
    up.dPort.up = true ∧ up.dPort.sending = none ∧ up.cPort.up = true ∧ up.cPort.sending = none ∧
    { judgedHead with dSelected := some .queueHead }.dfq ≠ [] ∧ up.dSelected ≠ some .queueHead ∧
    ((judging.setChannel 3 tripped).channel 3).pendingInjection = true ∧
    (∀ ch : ChannelId, (up.channel ch).pendingInjection = false) ∧
    { up with cSelected := some .response, responses := [plain] }.responses ≠ [] ∧
    { up with cSelected := some .report, report := { fullQueue with cursor := 7 } }.report.offer ≠ none ∧
    { up with cSelected := some .forward, ufq := [plain] }.ufq ≠ [] ∧ up.cSelected = none := by decide +kernel

/-- No departure, one on each port, one on both, and each left to its row: a judged one behind a D-port frame and an
UNLOCK_CHANNEL, and not behind a completion or a COMMIT; an injected one behind all that meets it, and not behind a
READ_MAP. -/
theorem witness_SelectionIsTheDeparture :
    (up.dStanding = none ∧ up.cStanding = none) ∧
    (judgedHead.dRow = some .judgedDeparture ∧ judgedHead.dHeld = false ∧ judgedHead.cStanding = none) ∧
    ({ up with dfq := [plain] }.dRow = some .dPortDeparture ∧
      (up.setChannel 3 tripped).dRow = some .injectedDeparture) ∧
    ({ up with ufq := [plain] }.cRow = some .ufqDeparture ∧ { up with ufq := [plain] }.cHeld = false ∧
      { up with ufq := [plain] }.dStanding = none) ∧
    ({ judgedHead with ufq := [plain] }.dRow = some .judgedDeparture ∧
      { judgedHead with ufq := [plain] }.cRow = some .ufqDeparture ∧
      { judgedHead with ufq := [plain] }.dHeld = false ∧ { judgedHead with ufq := [plain] }.cHeld = false) ∧
    { judgedHead with
      pending :=
        [.dPortReceipt [], .cPortReceipt (line 0x04 0x70 [0x0E, 0x09]), .judgedDeparture, .linkLossD] }.dHeld = true ∧
    (∀ claim ∈ [.transmissionComplete .cPort, .commit 0x10 1],
      { judgedHead with pending := [claim, .judgedDeparture] }.dHeld = false) ∧
    (let injecting := fun claims : List Instr =>
      { up.setChannel 3 tripped with pending := claims ++ [Instr.injectedDeparture] }
    (injecting
        [.dPortReceipt [], .unlockChannel 0x10 1 3, .silenceExpiry, .readChannel 0x10 2 3,
          .cPortReceipt (line 0x04 0x70 [0x0C]), .warmRestart 0x10 3]).dHeld = true ∧
      (injecting [.readMap 0x10 1 .active]).dHeld = false) ∧
    { up with responses := [plain], pending := [.judgedDeparture, .responseDeparture] }.cHeld = true := by
  decide +kernel

theorem witness_CompletionFreesTheTransmitter :
    { up with dPort := busyPort plain }.dPort.sending = some plain ∧
    { up with cPort := busyPort plain }.cPort.sending = some plain ∧ up.dPort.sending = none ∧
    up.cPort.sending = none := by decide +kernel

/-- A body of the shortest and of the longest size, with a check sequence that is not the computed one, and one with
it whose length field is 1 for an empty payload and 97 for one of 96 bytes. -/
theorem witness_DamagedFramesAreDropped :
    State.reset.cPort.up = false ∧ State.reset.dPort.up = false ∧ up.cPort.up = true ∧ up.dPort.up = true ∧
    (List.replicate 6 0x00#8).length < 7 ∧ 103 < (List.replicate 104 0x00#8).length ∧
    crc16 (List.replicate 5 0x00#8) ≠ half2 0x00 0x00 ∧ crc16 (List.replicate 101 0x00#8) ≠ half2 0x00 0x00 ∧
    crc16 [0x07, 0x01, 0x10, 0x07, 0x01] =
      half2 (BitVec.ofNat 8 ((crc16 [0x07, 0x01, 0x10, 0x07, 0x01]).toNat / 256))
        (BitVec.ofNat 8 (crc16 [0x07, 0x01, 0x10, 0x07, 0x01]).toNat) ∧
    (0x01#8).toNat ≠ [0x07#8, 0x01, 0x10, 0x07, 0x01, 0x00, 0x00].length - 7 ∧ 96 < (0x61#8).toNat ∧
    (List.replicate 96 0x55#8).length ≤ 96 := by decide +kernel

theorem witness_CheckFrameReadsExactlyTheFrames :
    checkFrame (line 0x07 0x01 (List.replicate 96 0x55#8)) = .valid (lineFrame 0x07 0x01 (List.replicate 96 0x55#8)) ∧
    checkFrame (line 0x07 0x01 []) = .valid plain := by decide +kernel

theorem witness_CPortReceiptForwardsDownstream : up.cPort.up = true ∧ checkFrame (line 0x07 0x01 []) = .valid plain ∧
    plain.destination ≠ up.ownAddress ∧ { up with dfq := List.replicate 7 plain }.dfq.length < 8 ∧
    8 ≤ { up with dfq := List.replicate 8 plain }.dfq.length ∧
    checkFrame (line 0x07 0x70 []) = .valid (lineFrame 0x07 0x70 []) ∧
    (lineFrame 0x07 0x70 []).destination = up.ownAddress ∧ (lineFrame 0x07 0x70 []).kind ≠ Frame.requestKind ∧
    checkFrame (line 0x04 0x70 [0x11]) = .valid (lineFrame 0x04 0x70 [0x11]) ∧
    (lineFrame 0x04 0x70 [0x11]).kind = Frame.requestKind ∧ decodeRequest [0x11] = none ∧
    up.Deliverable 0x10 0x07 := by decide +kernel

theorem witness_DPortReceiptForwardsUpstream : up.dPort.up = true ∧
    checkFrame (line 0x03 0x10 []) = .valid (lineFrame 0x03 0x10 []) ∧
    (lineFrame 0x03 0x10 []).kind ≠ Frame.sampleKind ∧ up.report.HasRoom 1 ∧
    { ReportQueue.reset with unsent := unsentRecords 47 }.HasRoom 1 ∧
    { up with ufq := List.replicate 7 plain }.ufq.length < 8 ∧
    8 ≤ { up with ufq := List.replicate 8 plain }.ufq.length := by decide +kernel

/-- A driver that is ACTIVE and one that is SILENT, a UFQ with its last place and a full one. -/
theorem witness_UnobservedSamplesOnlyCount : work.dPort.up = true ∧ work.observer.activity = .active ∧
    up.dPort.up = true ∧ up.observer.activity = .silent ∧ { work with ufq := List.replicate 7 plain }.ufq.length < 8 ∧
    ¬{ work with ufq := List.replicate 8 plain }.ufq.length < 8 ∧
    checkFrame (line 0x02 0x10 [0x00]) = .valid (lineFrame 0x02 0x10 [0x00]) ∧
    readSample [0x00] = none ∧
    checkFrame (line 0x02 0x10 (sample6 1000 23800 0)) = .valid (lineFrame 0x02 0x10 (sample6 1000 23800 0)) ∧
    ((readSample (sample6 1000 23800 0)).map Sample.index) = work.observer.reference := by decide +kernel

/-- No channel named, the lowest and the highest; the current at its two ends. -/
theorem witness_AcceptedFrame_readSample :
    readSample [0xFF, 0xFF, 0x00, 0x01, 0x00, 0x00] = some { index := 0xFFFF, supply := 1, entries := [] } ∧
    readSample [0x00, 0x00, 0xFF, 0xFF, 0x80, 0x01, 0x7F, 0xFF, 0xFF, 0xFF, 0x80, 0x00, 0x00, 0x01] =
      some { index := 0, supply := 65535, entries := [(0, ⟨32767, 65535⟩), (15, ⟨-32768, 1⟩)] } := by decide +kernel

/-- An advance of 1, one of 32767, an absent reference; a supply exactly at supply_low; while the supply is LOW, a
supply exactly at supply_ok and one below it. -/
theorem witness_AcceptedFrameHandlesEachChannel : work.dPort.up = true ∧ up.dPort.up = true ∧
    (∀ index ∈ [1001, 33767], checkFrame (line 0x02 0x10 (sample6 index 21000 300)) =
        .valid (lineFrame 0x02 0x10 (sample6 index 21000 300)) ∧
      (lineFrame 0x02 0x10 (sample6 index 21000 300)).kind = Frame.sampleKind ∧
      readSample (sample6 index 21000 300) =
        some { index := BitVec.ofNat 16 index, supply := 21000, entries := [(6, ⟨300, 24000⟩)] } ∧
      1 ≤ (BitVec.ofNat 16 index - 1000#16).toNat ∧ (BitVec.ofNat 16 index - 1000#16).toNat ≤ 32767) ∧
    work.observer.reference = some 1000 ∧ work.observer.supply = .ok ∧ work.active.policy.supplyLow ≤ 21000 ∧
    up.observer.reference = none ∧ up.observer.supply = .ok ∧ up.active.policy.supplyLow = 0 ∧
    { work with observer := { alive with supply := .low } }.observer.supply ≠ .ok ∧
    work.active.policy.supplyOk = 22500 ∧
    (∀ supply ∈ [22500, 22499], ((readSample (sample6 1001 supply 300)).map Sample.supply) = some supply) := by
  decide +kernel

/-- An entry exactly at oc_level, in an episode and outside one, and one below it; the conditions that a channel
fails. -/
theorem witness_OvercurrentTripsTheChannel : work.dPort.up = true ∧
    checkFrame (line 0x02 0x10 (sample6 1001 24000 1500)) = .valid (lineFrame 0x02 0x10 (sample6 1001 24000 1500)) ∧
    readSample (sample6 1001 24000 1500) =
      some { index := 1001, supply := 24000, entries := [(6, ⟨1500, 24000⟩)] } ∧
    work.observer.reference ≠ some 1001 ∧ (work.channel 6).energized = true ∧
    (work.channel 6).snapshot = some snapshot ∧ (work.channel 6).disposition = .open_ ∧
    (snapshot.profile.ocLevel : Int) ≤ 1500 ∧ (work.channel 6).episode ≠ none ∧
    ({ tracked with episode := none }.episode = none ∧ { tracked with episode := none }.snapshot = some snapshot ∧
      { tracked with episode := none }.energized = true ∧ { tracked with episode := none }.disposition = .open_) ∧
    (1499 : Int) < snapshot.profile.ocLevel ∧ locked.episode = none ∧ locked.disposition ≠ .open_ ∧
    Channel.reset.energized = false ∧ Channel.reset.snapshot = none := by decide +kernel

/-- Frames that leave chapter 3's second episode open, close it and trip its channel. -/
theorem witness_EpisodesCloseAndAreAccounted :
    { tracked with episode := some ramp28 }.snapshot = some snapshot ∧
    { tracked with episode := some ramp28 }.episode = some ramp28 ∧
    ramp28.handle snapshot.profile 1030 none = .stays { ramp28 with elapsed := 30, gap := 2 } ∧
    ramp28.handle snapshot.profile 1031 none = .closes { ramp28 with elapsed := 31, gap := 3 } .voidGap none ∧
    ramp28.handle snapshot.profile 1029 (some ⟨1600, 0⟩) = .trips { ramp28 with elapsed := 29, seen := 29 } := by
  decide +kernel

/-- A distance of 32768, and a supply one below supply_low, against a reference and against none. -/
theorem witness_VoidingFramesCloseEveryEpisode : work.ChannelsSound ∧ work.dPort.up = true ∧
    work.observer.reference = some 1000 ∧ work.observer.supply = .ok ∧ work.active.policy.supplyLow = 21000 ∧
    (∀ index ∈ [1001, 33768], checkFrame (line 0x02 0x10 (sample6 index 20999 300)) =
        .valid (lineFrame 0x02 0x10 (sample6 index 20999 300)) ∧
      readSample (sample6 index 20999 300) =
        some { index := BitVec.ofNat 16 index, supply := 20999, entries := [(6, ⟨300, 24000⟩)] } ∧
      BitVec.ofNat 16 index ≠ 1000#16) ∧
    32768 ≤ (33768#16 - 1000#16).toNat ∧
    { work with observer := { alive with reference := none } }.observer.reference ≠ some 1001 ∧
    (Sample.mk 1001 20999 [(6, ⟨300, 24000⟩)]).entry? 5 = none := by decide +kernel

/-- Chapter 2's example, and a frame that was selected before an injection became pending on a channel it names. -/
theorem witness_JudgedDepartureActsEntryByEntry : judging.dStanding = some .queueHead ∧
    (∀ f ∈ judging.dfq, judging.judges f = true ∧ readCommand f.payload =
      some [⟨2, 1, 0x3C⟩, ⟨5, 1, 0x3C⟩, ⟨12, 2, 0x00⟩, ⟨9, 7, 0x12⟩]) ∧ judging.dfq.length = 1 ∧
    (judging.channel 2).disposition = .open_ ∧ (judging.channel 5).disposition ≠ .open_ ∧
    (judging.channel 12).Sound ∧
    { judging.setChannel 5 tripped with dSelected := some .queueHead }.dStanding = some .queueHead ∧
    ((judging.setChannel 5 tripped).channel 5).pendingInjection = true := by decide +kernel

/-- One entry and sixteen, action and argument at their largest. -/
theorem witness_MalformedHeads_readCommand : readCommand [0x01, 0xFF, 0xFF] = some [⟨15, 15, 0xFF⟩] ∧
    ((readCommand (0x10 :: (List.range 16).flatMap fun c => [BitVec.ofNat 8 (c * 16 + 1), 0x00])).map List.length) =
      some 16 := by decide +kernel

/-- Two malformed heads with nothing, a plain frame or a well-formed judged frame behind them, and an injection that
became pending after the first was selected. -/
theorem witness_MalformedHeadsAreDroppedInOneEvent :
    (∀ rest ∈ [[], [plain, plain], [command [0x01, 0x21, 0x3C]]],
      { up with dfq := [command [0x00], command []] ++ rest }.dStanding = some .queueHead) ∧
    (∀ b ∈ [command [0x00], command []], up.judges b = true ∧ readCommand b.payload = none) ∧
    up.judges plain = false ∧ up.judges (command [0x01, 0x21, 0x3C]) = true ∧
    readCommand [0x01, 0x21, 0x3C] = some [⟨2, 1, 0x3C⟩] ∧ up.injectionOffered = false ∧
    { up.setChannel 5 tripped with dfq := [command []], dSelected := some .queueHead }.dStanding = some .queueHead ∧
    (up.setChannel 5 tripped).injectionOffered = true := by decide +kernel

theorem witness_InjectedDepartureReleasesThePending : (up.setChannel 15 tripped).dStanding = some .injection ∧
    ((up.setChannel 15 tripped).channel 15).pendingInjection = true := by decide +kernel

theorem witness_FramesDepartAsTheyStand : { up with dfq := [plain] }.dStanding = some .queueHead ∧
    plain.kind ≠ Frame.commandKind ∧ (lineFrame 0x01 0x02 []).destination ≠ up.active.policy.driverAddress ∧
    { up with responses := [plain] }.cStanding = some .response ∧
    { up with ufq := [plain] }.cStanding = some .forward := by decide +kernel

/-- An eighth record of the window sent again, in a full queue, and an unsent record that becomes the first. -/
theorem witness_ReportDepartureNumbersAndAdvances :
    (reporting { fullQueue with cursor := 7, lossCount := 2 }).cStanding = some .report ∧ fullQueue.total = 48 ∧
    fullQueue.window[7]? = some ⟨208, .driverBack⟩ ∧
    (reporting { ReportQueue.reset with unsent := [.driverBack] }).cStanding = some .report ∧
    ReportQueue.reset.lossCount = 0 ∧ ReportQueue.reset.cursor = ReportQueue.reset.window.length := by decide +kernel

theorem witness_SilenceExpiryVoidsAndReports : (ticking 0).ChannelsSound ∧
    (ticking 0).observer.silenceTimer = some 0 ∧ (ticking 1).observer.silenceTimer ≠ some 0 ∧
    up.observer.silenceTimer ≠ some 0 := by decide +kernel

theorem witness_RetransmitExpiryGoesBackOrStalls : (ticking 0).report.retransmitTimer = some 0 ∧
    (ticking 0).report.lossCount = 0 ∧ (ticking 0).report.retryCount < 5 ∧ fullQueue.total = 48 ∧
    { (ticking 0).report with retryCount := 5 }.retryCount = 5 ∧ (ticking 1).report.retransmitTimer ≠ some 0 := by
  decide +kernel

theorem witness_LeaseExpiryEndsTheSession : (ticking 0).session = some { session with lease := 0 } ∧
    work.session = some session ∧ session.lease ≠ 0 ∧ up.session = none := by decide +kernel

/-- Requests of 10H, the holder, and of 50H, with three responses waiting and the cache holding other tags. -/
def busy : State :=
  { work with
    responses := [plain, plain, plain]
    cache := [⟨0x10, 0x41, plain⟩, ⟨0x20, 0x01, plain⟩, ⟨0x30, 0x01, plain⟩, ⟨0x40, 0x01, plain⟩] }

theorem witness_Deliverable : busy.Deliverable 0x10 0x42 ∧ busy.Deliverable 0x50 0x41 ∧ busy.Holds 0x10 session ∧
    up.Deliverable 0x10 0x00 ∧ up.session = none := by decide +kernel

theorem witness_IdentifyAndReadChannelAnswer : busy.Deliverable 0x50 0x41 ∧ (0x0F#8).toNat = (15 : ChannelId).val ∧
    16 ≤ (0x10#8).toNat := by decide +kernel

theorem witness_TableReadsReturnTheBank : busy.Deliverable 0x10 0x42 ∧
    (BankName.shadow = .shadow ∧ ∃ held, busy.Holds 0x10 held ∧ tables = held.shadow) ∧
    (0x1F#8).toNat = (31 : SlotIndex).val ∧ 32 ≤ (0x20#8).toNat :=
  ⟨by decide +kernel, ⟨rfl, session, by decide +kernel, rfl⟩, by decide, by decide⟩

theorem witness_ReadCountersAnswersAndClears : busy.Deliverable 0x50 0x41 := by decide +kernel

theorem witness_OpenSessionTakesOrRenews : up.Deliverable 0x10 0x00 ∧ up.session = none ∧
    busy.Deliverable 0x10 0x42 ∧ busy.Holds 0x10 session ∧ busy.Deliverable 0x50 0x41 ∧
    busy.session = some session ∧ session.holder ≠ 0x50 := by decide +kernel

/-- The fields' codes with their checks, as the statement lists them. -/
def fieldChecks (p : Profile) : List (Byte × Bool) :=
  [(0x01, decide (1 ≤ p.openLevel ∧ p.openLevel ≤ 32767)), (0x02, decide (1 ≤ p.openDeadline ∧ p.openDeadline ≤ 255)),
    (0x03, decide (p.openLevel + 1 ≤ p.hitLevel ∧ p.hitLevel ≤ 32767)),
    (0x04, decide (p.openDeadline ≤ p.hitDeadline ∧ p.hitDeadline ≤ 1023)),
    (0x05, decide (p.hitLevel + 1 ≤ p.ocLevel ∧ p.ocLevel ≤ 32767)), (0x06, decide (p.settle ≤ 255)),
    (0x07, decide (p.gapLimit ≤ 15)), (0x08, decide (p.lockAfter ≤ 15))] ++
  (p.measure.elim [] fun g =>
    [(0x0F, decide (1 ≤ g.window ∧ g.window ≤ 64)), (0x10, decide (1 ≤ g.rMin ∧ g.rMin ≤ 4000000)),
      (0x11, decide (g.rMin + 1 ≤ g.rMax ∧ g.rMax ≤ 4000000))])

/-- A profile without motion whose fields all pass, and one whose first and one whose last field fails. -/
theorem witness_WriteProfileChecksThenWrites : busy.Deliverable 0x10 0x42 ∧ busy.Holds 0x10 session ∧
    32 ≤ (0x20#8).toNat ∧ (0x1F#8).toNat = (31 : SlotIndex).val ∧
    (let p := { profile with motion := none, measure := some measureGroup }
    (∀ check ∈ fieldChecks p, check.2 = true) ∧
      fieldChecks { p with openLevel := 0 } = [] ++ (0x01, false) :: (fieldChecks p).drop 1 ∧
      fieldChecks { p with measure := some { measureGroup with rMax := 20000 } } =
        (fieldChecks p).take 10 ++ (0x11, false) :: [] ∧
      (∀ check ∈ (fieldChecks p).take 10, check.2 = true)) := by decide +kernel

theorem witness_ProfileChecksAreTheRanges :
    { profile with motion := some { motion0 with reactionMin := 1022, reactionMax := 1023 } }.badField = none ∧
      { profile with ocLevel := 32768 }.badField ≠ none := by decide +kernel

theorem witness_WriteMapChecksThenReplaces : busy.Deliverable 0x10 0x42 ∧ busy.Holds 0x10 session ∧
    (∀ c : ChannelId, ((Vector.replicate 16 0x1F#8).set 3 0xFF#8)[c.val].toNat < 32 ∨
      ((Vector.replicate 16 0x1F#8).set 3 0xFF#8)[c.val] = 0xFF) ∧
    32 ≤ ((Vector.replicate 16 0x1F#8).set 15 0x20#8)[(15 : ChannelId).val].toNat ∧
    (∀ c : ChannelId, c < 15 → ((Vector.replicate 16 0x1F#8).set 15 0x20#8)[c.val].toNat < 32) := by decide +kernel

theorem witness_WritePolicyChecksThenReplaces : busy.Deliverable 0x10 0x42 ∧ busy.Holds 0x10 session ∧
    (∀ p ∈ [{ tables.policy with driverAddress := 0x70 }, { tables.policy with sinkAddress := 0xFF },
        { tables.policy with retransmitMs := 1001 }, { tables.policy with silenceMs := 1 },
        { tables.policy with supplyOk := 20999 }, { tables.policy with supplyOk := 21000 }], p.fits = true) ∧
    busy.ownAddress = 0x70 := by decide +kernel

/-- A SHADOW that names an EMPTY slot, one that does not, and one with another sink. -/
theorem witness_CommitChangesOverTheTables : busy.Deliverable 0x10 0x42 ∧ busy.Holds 0x10 session ∧
    (tables.setSlot 5 none).inconsistentChannel = some 6 ∧
    (∀ (c : ChannelId) (slot : SlotIndex), tables.map[c.val] = some slot → tables.slots[slot.val] ≠ none) ∧
    busy.report.lossCount = 0 ∧ fullQueue.total = 48 ∧
    session.shadow.policy.sinkAddress = busy.active.policy.sinkAddress ∧
    defaultPolicy.sinkAddress ≠ busy.active.policy.sinkAddress := by decide +kernel

theorem witness_UnlockLeavesLocked : busy.Deliverable 0x10 0x42 ∧ busy.Holds 0x10 session ∧ 16 ≤ (0x10#8).toNat ∧
    (0x0F#8).toNat = (15 : ChannelId).val ∧ (busy.channel 15).disposition ≠ .locked ∧
    (0x09#8).toNat = (9 : ChannelId).val ∧ (busy.channel 9).disposition = .locked := by decide +kernel

/-- The sink 20H, with losses counted at a full queue. -/
def acked : State := { busy with report := { fullQueue with lossCount := 4 } }

theorem witness_AcknowledgementRemovesTheFront : acked.Deliverable 0x20 0x42 ∧
    0x20#8 = acked.active.policy.sinkAddress ∧ (0x20#8) ≠ 0x00 ∧
    acked.report.window = [sent 201, sent 202] ++ ⟨203, .driverBack⟩ :: [sent 204, sent 205, sent 206, sent 207, sent 208] ∧
    (∀ x ∈ [sent 201, sent 202], x.number ≠ 203) ∧ acked.report.total ≤ 48 := by decide +kernel

theorem witness_StaleAndForeignAcknowledgements : acked.Deliverable 0x20 0x42 ∧
    0x20#8 = acked.active.policy.sinkAddress ∧ (∀ x ∈ acked.report.window, x.number ≠ 300) ∧
    acked.Deliverable 0x50 0x42 ∧ 0x50#8 ≠ acked.active.policy.sinkAddress ∧ up.Deliverable 0x10 0x00 ∧
    up.active.policy.sinkAddress = 0x00 := by decide +kernel

theorem witness_WarmRestartClearsTheBookkeeping : busy.Deliverable 0x10 0x42 ∧ busy.Holds 0x10 session := by
  decide +kernel

theorem witness_AuthorityIsCheckedFirst :
    (Instr.readMap 0x50 0x41 .shadow).request? = some (0x50, 0x41, .readMap .shadow) ∧
    (Request.readMap .shadow).holderOnly = true ∧ busy.Deliverable 0x50 0x41 ∧ busy.session = some session ∧
    session.holder ≠ 0x50 ∧ up.Deliverable 0x50 0x41 ∧ up.session = none := by decide +kernel

/-- The last of four entries with the last place of the response queue: a request of another kind as a row, and a
malformed one as a frame. -/
theorem witness_RetriedRequestIsReplayed_cached : busy.cPort.up = true ∧ busy.responses.length = 3 ∧
    busy.cache = [⟨0x10, 0x41, plain⟩, ⟨0x20, 0x01, plain⟩, ⟨0x30, 0x01, plain⟩] ++ ⟨0x40, 0x01, plain⟩ :: [] ∧
    (∀ e ∈ [(⟨0x10, 0x41, plain⟩ : CacheEntry), ⟨0x20, 0x01, plain⟩, ⟨0x30, 0x01, plain⟩],
      e.source ≠ 0x40 ∨ e.tag ≠ 0x01) ∧
    (Instr.readMap 0x40 0x01 .shadow).request? = some (0x40, 0x01, .readMap .shadow) ∧
    (let f := Frame.build Frame.requestKind 0x70 0x40 0x01 [0x11]
    checkFrame f.bytes = .valid f ∧ f.kind = Frame.requestKind ∧ f.destination = busy.ownAddress ∧ f.source = 0x40 ∧
      f.sequence = 0x01 ∧ decodeRequest f.payload = none) := by decide +kernel

theorem witness_RetriedRequestIsReplayed : (Instr.commit 0x10 0x42).request? = some (0x10, 0x42, .commit) ∧
    work.Deliverable 0x10 0x42 ∧ ∃ t, exec (.commit 0x10 0x42) work = .next t ∧ t.responses.length < responseCapacity :=
  ⟨by decide +kernel, by decide +kernel, _, rfl, by decide +kernel⟩

theorem witness_FullResponseQueueDropsRequests :
    (Instr.identify 0x50 0x41).request? = some (0x50, 0x41, .identify) ∧
    { busy with responses := List.replicate 4 plain }.cPort.up = true ∧
    responseCapacity ≤ { busy with responses := List.replicate 4 plain }.responses.length ∧
    { busy with responses := List.replicate 4 plain }.cached 0x50 0x41 = none ∧
    { busy with responses := List.replicate 4 plain }.cached 0x10 0x41 ≠ none := by decide +kernel

theorem witness_RequestsDecodeExactly :
    (Request.writeProfile 31 { profile with measure := some measureGroup }).wellFormed = true ∧
    (decodeRequest (Request.writeProfile 31 { profile with measure := some measureGroup }).payload).isSome = true := by
  decide +kernel

theorem witness_RequestRowsAreReceipts :
    (Instr.writePolicy 0x10 0x42 tables.policy).request? = some (0x10, 0x42, .writePolicy tables.policy) ∧
    (Instr.writePolicy 0x10 0x42 tables.policy).wellFormed = true := by decide +kernel

/-- Chapter 2's example with its head selected and left to its row. -/
def left : State := { judging with dSelected := some .queueHead, pending := [.judgedDeparture] }

theorem witness_BlockedChannelIsNeverEnergized :
    (left.Arbitrated ∧ (left.channel 5).disposition ≠ .open_ ∧ left.dPort.sending = none) ∧
    ∃ t, step left = .next t ∧ (t.channel 2).energized = true ∧
      ∀ f ∈ t.dPort.sending, (f.kind = Frame.commandKind ∧ f.destination = left.active.policy.driverAddress) ∧
        readCommand f.payload = some [⟨2, 1, 0x3C⟩, ⟨5, 2, 0x00⟩, ⟨12, 2, 0x00⟩, ⟨9, 7, 0x12⟩] :=
  ⟨by decide +kernel, after { left with pending := [] } .judgedDeparture, rfl, by decide +kernel⟩

/-- The part at work, its arbiters at rest, a response selected and left to its row. -/
def settled : State := State.arbitrate { busy with pending := [.responseDeparture] }

/-- The invariants hold of a part at work, not of the reset state alone, and a step leads on from it. -/
theorem witness_StepKeepsChannels : settled.ChannelsSound ∧ settled.ChannelsBalanced ∧ settled.StreamSound := by
  decide +kernel

theorem witness_StepKeepsTables : settled.TablesSound ∧ settled.GenerationSound ∧ settled.AddressSound := by
  decide +kernel

theorem witness_StepKeepsQueues : settled.QueuesBounded ∧ settled.PortsSound ∧ settled.Arbitrated ∧
    settled.cSelected = some .response := by decide +kernel

theorem witness_StepKeepsReports : (ticking 1).ReportSound ∧ settled.FramesIntact := by decide +kernel

theorem witness_StepKeeps : ∃ t, step settled = .next t := ⟨_, rfl⟩

/-- The last entry of 11.1's window; the same sums with no current; one mA against the largest voltage sum. -/
theorem witness_ResistanceIsExact : measureGroup.window ≤ 3 + 1 ∧ 1 ≤ measureGroup.rMin ∧
    measureGroup.rMin < measureGroup.rMax ∧ (2703 : Int) + 902 = 3605 ∧ (0 : Int) ≤ 0 ∧ (0 : Int) < 1 ∧
    resistance? 1 4194240 = some 4194240000 ∧
    ({ Episode.start profile 2200 with sumCurrent := 2703, sumVoltage := 61230, measureCount := 3 }.stepMeasure
      measureGroup ⟨902, 20420⟩) =
      .closes { Episode.start profile 2200 with sumCurrent := 3605, sumVoltage := 81650, measureCount := 4 } .pass
        (some 22649) := by decide +kernel

/-- An episode in RAMP whose present entries number `seen`. -/
def rampSeen (seen : Nat) (openSeen : Bool) : Episode := { Episode.start profile 1000 with seen, openSeen }

/-- Each deadline at its boundary, an episode that meets none, the gap at its limit and above it, an entry at oc_level
and one below it, and phase steps that keep the episode and that close it. -/
theorem witness_DeadlinesCloseInOrder :
    (((rampSeen 9 false).count 1010 false).gap ≤ profile.gapLimit ∧
      profile.openDeadline ≤ ((rampSeen 9 false).count 1010 false).elapsed) ∧
    (((rampSeen 59 true).count 1060 false).gap ≤ profile.gapLimit ∧
      profile.hitDeadline ≤ ((rampSeen 59 true).count 1060 false).elapsed ∧ (rampSeen 59 true).hit = none) ∧
    (((rampSeen 30 true).count 1031 false).gap ≤ profile.gapLimit ∧
      ((rampSeen 30 true).count 1031 false).elapsed = 31 ∧ ((rampSeen 30 true).count 1030 false).elapsed = 30) ∧
    (((rampSeen 8 true).count 1010 false).gap = profile.gapLimit ∧
      profile.gapLimit < ((rampSeen 7 true).count 1010 false).gap ∧
      profile.gapLimit < ((rampSeen 6 true).count 1010 true).gap) ∧
    ((profile.ocLevel : Int) ≤ 1500 ∧ (1499 : Int) < profile.ocLevel) ∧
    (ramp28.stepPhase profile 1029 ⟨571, 0⟩ = .stays { ramp28 with runningMax := some ⟨1026, 650⟩ } ∧
      { ramp28 with phase := .climb, hit := some 1028 }.stepPhase { profile with settle := 0 } 1029 ⟨900, 0⟩ =
        .closes { ramp28 with phase := .climb, hit := some 1028 } .pass none) := by decide +kernel

/-- A current exactly peak_drop below the maximum and one above that; a first entry; a current exactly valley_rise
above the minimum and one below that; a reaction and travel for each outcome. -/
theorem witness_PhasesConfirmAndComplete_motion : profile.motion.isSome = true ∧
    (ramp28.phase = .ramp ∧ ramp28.runningMax = some ⟨1026, 650⟩ ∧ (570 : Int) ≤ 650 - 80 ∧ (650 - 80 : Int) < 571) ∧
    ((Episode.start profile 1000).phase = .ramp ∧ (Episode.start profile 1000).runningMax = none) ∧
    (let dip := { ramp28 with phase := .dip, peak := some ⟨1026, 650⟩, runningMin := some ⟨1028, 500⟩ }
    dip.runningMin = some ⟨1028, 500⟩ ∧ dip.peak = some ⟨1026, 650⟩ ∧ (559 : Int) < 500 + 60 ∧ (500 + 60 : Int) ≤ 560 ∧
      (1028#16 - 1000#16).toNat = 28 ∧ (1028#16 - 1026#16).toNat = 2) ∧
    (4 < 5 ∧ 1 < 2 ∧ 15 < 16 ∧ 5 ≤ 28 ∧ 2 ≤ 2 ∧ 2 ≤ 15) := by decide +kernel

/-- CLIMB without and with the hit, SETTLE one short of settle and at it, MEASURE one short of the window and at it, with
current sums of 0 and 1 and resistances at and beyond both limits of 11.1's group. -/
theorem witness_PhasesConfirmAndComplete_measure :
    (let climb := { ramp28 with phase := .climb }
    climb.phase = .climb ∧ climb.hit = none ∧ { climb with hit := some 1028 }.hit ≠ none) ∧
    (0 < profile.settle ∧ { profile with settle := 0 }.settle = 0 ∧ profile.measure = none ∧
      { profile with measure := some measureGroup }.measure ≠ none) ∧
    ((0 + 1 < profile.settle ∧ profile.settle ≤ 1 + 1) ∧ 2 + 1 < measureGroup.window ∧
      measureGroup.window ≤ 3 + 1) ∧
    ((-5 + 5 : Int) ≤ 0 ∧ (0 : Int) < -5 + 6 ∧
      [19999, 20000, 26000, 26001].map (fun v => 1000 * v / (1000 : Int).toNat) = [19999, 20000, 26000, 26001] ∧
      measureGroup.rMin = 20000 ∧ measureGroup.rMax = 26000) :=
  ⟨by simp [ramp28, Episode.start], by simp [profile], by decide, by decide⟩

theorem witness_EpisodeCountsAndMovesForward :
    ramp28.handle profile 1030 none = .stays { ramp28 with elapsed := 30, gap := 2 } ∧
    ramp28.handle profile 1029 (some ⟨1600, 0⟩) = .trips { ramp28 with elapsed := 29, seen := 29 } := by decide +kernel

/-- The last place; a full queue that keeps its records but for the evicted one; a BLOCKED record that finds one of
its channel and a MALFORMED one that finds one at 255; a full queue without a PASS VERDICT and with losses counted. -/
theorem witness_HandedRecordsKeepTheQueue :
    { ReportQueue.reset with unsent := unsentRecords 47 }.HasRoom [Record.driverSilent].length ∧
    fullQueue.total = queueCapacity ∧ Record.supplyLow 1 ∈ fullQueue.unsent ∧ (Record.supplyLow 1).isPass = false ∧
    fullQueue.unsent = [.supplyLow 1] ++ passVerdict :: .blocked 4 3 :: unsentRecords 37 ∧
    passVerdict.isPass = true ∧
    fullQueue.unsent = [.supplyLow 1, passVerdict] ++ .blocked 4 3 :: unsentRecords 37 ∧
    { ReportQueue.reset with unsent := [.malformed 255] }.unsent = [] ++ .malformed 255 :: [] ∧
    { fullQueue with unsent := unsentRecords 40, lossCount := 65535 }.total = queueCapacity ∧
    (∀ x ∈ unsentRecords 40, x.isPass = false) := by decide +kernel

end Sys2Proof.Tests
end

/-! SUPPORT. What a step can do to the tables and the channel contexts: a sequence of moves. The invariants of the
tables and of the channels follow from what each kind of move keeps. -/

namespace Sys2Proof.Machine

/-- What one event can make of a channel's context: nothing, a closure from outside (R77 to R79), an accepted frame
(R45), an admitted ENERGIZE (R29), a controller's RELEASE (R30), a RELEASE that departs for a channel that is not OPEN
or whose injection is pending (R29, R94), an unlock (R35), or a warm restart (R80). -/
inductive State.ChannelMove (s : State) (ch : ChannelId) : Channel → Prop
  | stays : s.ChannelMove ch (s.channel ch)
  | closed (outcome : EpisodeOutcome) : s.ChannelMove ch ((s.channel ch).closeOutside ch outcome).1
  | sampled (x : Half) (entry : Option SampleEntry) : s.ChannelMove ch ((s.channel ch).handleFrame ch x entry).1
  | energized (opening : Option Half) (ho : (s.channel ch).disposition = .open_) :
      s.ChannelMove ch (((s.channel ch).closeOutside ch .superseded).1.energize (s.snapshotFor ch) opening)
  | freed : s.ChannelMove ch ((s.channel ch).closeOutside ch .releasedEarly).1.releasedByController
  | released (hr : (s.channel ch).disposition ≠ .open_ ∨ (s.channel ch).pendingInjection = true) :
      s.ChannelMove ch (s.channel ch).released
  | unlocked (hl : (s.channel ch).disposition = .locked) : s.ChannelMove ch (s.channel ch).unlocked
  | restarted : s.ChannelMove ch (s.channel ch).restart

/-- What one event can make of SHADOW: a copy of ACTIVE, or the holder's SHADOW with at most one checked write. -/
inductive State.ShadowMove (s : State) : Bank → Prop
  | copied : s.ShadowMove s.active
  | kept (held : Session) (hs : s.session = some held) : s.ShadowMove held.shadow
  | slot (held : Session) (hs : s.session = some held) (i : SlotIndex) (p : Option Profile)
      (hp : ∀ x ∈ p, x.badField = none) : s.ShadowMove (held.shadow.setSlot i p)
  | map (held : Session) (hs : s.session = some held) (map : Vector (Option SlotIndex) 16) :
      s.ShadowMove { held.shadow with map }
  | policy (held : Session) (hs : s.session = some held) (policy : Policy)
      (hp : policy.badField s.ownAddress = none) : s.ShadowMove { held.shadow with policy }

/-- One move: cold reset, moves of the channels, a move of the session, or an accepted COMMIT. Of every field but the
own address, the tables, the generation, the session and the channel contexts it says nothing. -/
inductive State.Move (s t : State) : Prop
  | reset (straps : BitVec 3) (ht : t = s.coldReset straps)
  | channels (hc : ∀ ch : ChannelId, s.ChannelMove ch (t.channel ch))
      (h : (t.ownAddress, t.active, t.generation, t.session) = (s.ownAddress, s.active, s.generation, s.session))
  | session (hs : ∀ held ∈ t.session, s.ShadowMove held.shadow)
      (h : (t.ownAddress, t.active, t.generation, t.channels) = (s.ownAddress, s.active, s.generation, s.channels))
  | commit (held : Session) (hs : s.session = some held) (hi : held.shadow.inconsistentChannel = none)
      (h : (t.ownAddress, t.active, t.generation, t.session, t.channels) =
        (s.ownAddress, held.shadow, nextGeneration s.generation, none, s.channels))

/-- A sequence of moves. -/
def State.Moves : State → State → Prop := Relation.ReflTransGen State.Move

section
variable {s t u : State}

theorem State.channel_congr (h : t.channels = s.channels) (ch : ChannelId) : t.channel ch = s.channel ch :=
  congrArg (fun channels : Vector Channel 16 => channels[ch.val]) h

theorem State.Moves.refl : s.Moves s := Relation.ReflTransGen.refl

theorem State.Moves.trans (h : s.Moves t) (h' : t.Moves u) : s.Moves u := Relation.ReflTransGen.trans h h'

theorem State.Move.moves (h : s.Move t) : s.Moves t := Relation.ReflTransGen.single h

/-- What every move keeps, a sequence of moves keeps. -/
theorem State.Moves.keeps {P : State → Prop} (hP : ∀ s t : State, s.Move t → P s → P t) (h : s.Moves t)
    (hs : P s) : P t := by
  induction h with
  | refl => exact hs
  | tail _ hm ih => exact hP _ _ hm ih

/-- Moves of the channels alone. -/
theorem State.Moves.channels (hc : ∀ ch : ChannelId, s.ChannelMove ch (t.channel ch))
    (h : (t.ownAddress, t.active, t.generation, t.session) = (s.ownAddress, s.active, s.generation, s.session)) :
    s.Moves t :=
  (State.Move.channels hc h).moves

/-- A move of the session alone. -/
theorem State.Moves.session (hs : ∀ held ∈ t.session, s.ShadowMove held.shadow)
    (h : (t.ownAddress, t.active, t.generation, t.channels) = (s.ownAddress, s.active, s.generation, s.channels)) :
    s.Moves t :=
  (State.Move.session hs h).moves

/-- The end of the session is a move (R11). -/
theorem State.Moves.sessionEnds (hn : t.session = none)
    (h : (t.ownAddress, t.active, t.generation, t.channels) = (s.ownAddress, s.active, s.generation, s.channels)) :
    s.Moves t :=
  .session (by simp [hn]) h

/-- A change of the other fields alone is a move. -/
theorem State.Moves.elsewhere (h : (t.ownAddress, t.active, t.generation, t.session, t.channels) =
    (s.ownAddress, s.active, s.generation, s.session, s.channels)) : s.Moves t := by
  obtain ⟨ho, ha, hg, hs, hc⟩ := by simpa only [Prod.mk.injEq] using h
  refine .channels (fun ch => ?_) (by rw [ho, ha, hg, hs])
  rw [State.channel_congr hc]
  exact .stays

end

variable (s : State)

theorem State.ChannelMove.of_eq {s : State} {ch : ChannelId} {c d : Channel} (h : d = c) (hm : s.ChannelMove ch c) :
    s.ChannelMove ch d := h ▸ hm

/-- A move at one channel alone. -/
theorem State.ChannelMove.alone {s : State} {ch : ChannelId} {c : Channel} (h : s.ChannelMove ch c) :
    ∀ d : ChannelId, s.ChannelMove d ((s.setChannel ch c).channel d) := by
  intro d
  rw [State.channel_setChannel]
  split
  · rename_i hd; rw [hd]; exact h
  · exact .stays

theorem State.ChannelMove.moves {s : State} {ch : ChannelId} {c : Channel} (h : s.ChannelMove ch c) :
    s.Moves (s.setChannel ch c) :=
  .channels h.alone rfl

theorem State.hand_moves (records : List Record) : s.Moves (s.hand records) := .elsewhere rfl

/-! Voids, frames and the driver's silence. -/

theorem State.voidEpisodes_moves (outcome : EpisodeOutcome) : s.Moves (s.voidEpisodes outcome) := by
  obtain ⟨channels, heq, hch⟩ := s.voidEpisodes_spec outcome
  rw [heq]
  refine .channels (fun ch => ?_) rfl
  exact .of_eq (hch ch) (.closed outcome)

theorem State.trackFrame_moves (m : Sample) : s.Moves (s.trackFrame m) := by
  obtain ⟨channels, heq, hch⟩ := s.trackFrame_spec m
  rw [heq]
  refine .channels (fun ch => ?_) rfl
  exact .of_eq (hch ch) (.sampled m.index (m.entry? ch))

theorem State.fallSilent_moves : s.Moves s.fallSilent := by
  obtain ⟨channels, heq, hch⟩ := s.fallSilent_spec
  rw [heq]
  refine .channels (fun ch => ?_) rfl
  exact .of_eq (hch ch) (.closed .voidSilent)

theorem State.evaluateSupply_moves (supply : Nat) : s.Moves (s.evaluateSupply supply) := by
  unfold State.evaluateSupply
  dsimp only
  split
  · split
    · have hlow : s.Moves { s with observer := { s.observer with supply := .low } } := .elsewhere rfl
      exact (hlow.trans (State.voidEpisodes_moves _ _)).trans (State.hand_moves _ _)
    · exact .refl
  · split
    · exact .elsewhere rfl
    · exact .refl

theorem State.acceptSample_moves (m : Sample) : s.Moves (s.acceptSample m) := by
  have href : s.Moves { s with observer := { s.observer with reference := some m.index } } := .elsewhere rfl
  exact (href.trans (State.evaluateSupply_moves _ m.supply)).trans (State.trackFrame_moves _ m)

theorem State.resync_moves : s.Moves s.resync :=
  (s.voidEpisodes_moves .voidGap).trans (.elsewhere rfl)

theorem State.observe_moves (payload : List Byte) : s.Moves (s.observe payload) := by
  unfold State.observe
  split
  · rename_i m _
    unfold State.observeSample
    split
    · exact .elsewhere rfl
    · exact s.resync_moves.trans (State.acceptSample_moves _ m)
    · exact s.acceptSample_moves m
    · exact s.acceptSample_moves m
  · exact .elsewhere rfl

/-! Departures. -/

theorem State.departInjection_moves : s.Moves s.departInjection := by
  obtain ⟨channels, heq, hch⟩ := s.departInjection_frame
  rw [heq]
  refine .channels (fun ch => ?_) rfl
  refine .of_eq (hch ch) ?_
  split
  · rename_i hp; exact .released (.inr hp)
  · exact .stays

theorem State.admitEnergize_moves (ch : ChannelId) (ho : (s.channel ch).disposition = .open_) :
    s.Moves (s.admitEnergize ch) := by
  refine .channels (fun d => ?_) rfl
  have heq : (s.admitEnergize ch).channel d =
      (s.setChannel ch (((s.channel ch).closeOutside ch .superseded).1.energize (s.snapshotFor ch)
        s.observer.openingIndex)).channel d := by
    rw [State.admitEnergize]
    simp only [State.channel_setChannel, State.channel_putChannel, if_true]
    split <;> rfl
  rw [heq]
  exact (State.ChannelMove.energized _ ho).alone d

theorem State.applyRelease_moves (ch : ChannelId) : s.Moves (s.applyRelease ch) := by
  refine .channels (fun d => ?_) rfl
  have heq : (s.applyRelease ch).channel d =
      (s.setChannel ch ((s.channel ch).closeOutside ch .releasedEarly).1.releasedByController).channel d := by
    rw [State.applyRelease]
    simp only [State.channel_setChannel, State.channel_putChannel, if_true]
    split <;> rfl
  rw [heq]
  exact State.ChannelMove.freed.alone d

theorem State.judgeEntry_moves (e : CommandEntry) : s.Moves (s.judgeEntry e).1 := by
  unfold State.judgeEntry
  split
  · split
    · rename_i ho; exact s.admitEnergize_moves e.channel ho
    · rename_i ho
      exact (State.ChannelMove.released (.inl ho)).moves.trans (.elsewhere rfl)
  · split
    · exact s.applyRelease_moves e.channel
    · exact .refl

theorem State.judgeEntries_moves (l : List CommandEntry) : ∀ s : State, s.Moves (s.judgeEntries l).1 := by
  induction l with
  | nil => exact fun _ => .refl
  | cons e l ih => exact fun s => (s.judgeEntry_moves e).trans (ih _)

theorem State.departD_moves (l : List Frame) : ∀ (s : State) (head : Bool), s.Moves (s.departD head l) := by
  induction l with
  | nil =>
    intro s head
    have hdrained : s.Moves { s with dfq := [] } := .elsewhere rfl
    unfold State.departD
    dsimp only
    split
    · exact hdrained.trans (State.departInjection_moves _)
    · exact hdrained
  | cons f l ih =>
    intro s head
    have htaken : ∀ dfq, s.Moves { s with dfq } := fun _ => .elsewhere rfl
    unfold State.departD
    split
    · exact (htaken _).trans (State.departInjection_moves _)
    · split
      · split
        · rename_i entries _
          exact ((htaken l).trans (State.judgeEntries_moves entries _)).trans (.elsewhere rfl)
        · have hdropped : s.Moves s.dropMalformed := .elsewhere rfl
          exact hdropped.trans (ih _ false)
      · exact .elsewhere rfl

theorem State.leaveD_moves : s.Moves s.leaveD := by
  unfold State.leaveD
  split
  · exact s.departInjection_moves
  · exact State.departD_moves s.dfq s true
  · exact .refl

theorem State.leaveC_moves : s.Moves s.leaveC := by
  obtain ⟨_, _, _, _, _, _, heq, _⟩ := s.leaveC_frame
  rw [heq]
  exact .elsewhere rfl

/-- The arbiters' acts are moves (R168 to R172). -/
theorem State.arbitrate_moves : s.Moves s.arbitrate :=
  s.arbitrate_induct s.Moves .refl (fun t h => h.trans t.leaveD_moves) (fun t h => h.trans t.leaveC_moves)
    (fun _ _ h => h.trans (.elsewhere rfl)) (fun _ h => h.trans (.elsewhere rfl))

/-- An event with the arbiters' acts behind it. -/
theorem State.Moves.arbitrated {s t : State} (h : s.Moves t) : s.Moves t.arbitrate := h.trans t.arbitrate_moves

/-- An event that happens under a condition, with the arbiters' acts behind it. -/
theorem State.Moves.arbitrated_ite {s t : State} (h : s.Moves t) (p : Prop) [Decidable p] :
    s.Moves (if p then t.arbitrate else s) := by
  split
  · exact h.arbitrated
  · exact .refl

/-! Management requests. -/

/-- The holder's SHADOW replaced is a move, where the new one is (R12). -/
theorem State.ShadowMove.moves {s : State} {held : Session} {shadow : Bank} (h : s.ShadowMove shadow) :
    s.Moves (s.withShadow held shadow) :=
  .session (by simpa using h) rfl

theorem State.renewLease_moves (source : Byte) : s.Moves (s.renewLease source) := by
  rw [State.renewLease_eq]
  refine .session (fun held hheld => ?_) rfl
  obtain ⟨old, hold, rfl⟩ := Option.map_eq_some_iff.1 hheld
  split <;> exact .kept old hold

theorem State.expireLease_moves : s.Moves s.expireLease := by
  unfold State.expireLease
  split
  · exact .sessionEnds rfl rfl
  · exact .refl

theorem State.tick_moves : s.Moves s.tick := by
  refine .session (fun held hheld => ?_) rfl
  obtain ⟨old, hold, rfl⟩ := Option.map_eq_some_iff.1 hheld
  exact .kept old hold

theorem State.changeOver_moves (held : Session) (hs : s.session = some held)
    (hi : held.shadow.inconsistentChannel = none) : s.Moves (s.changeOver held.shadow) :=
  State.Move.moves (.commit held hs hi rfl)

theorem State.unlock_moves (ch : ChannelId) : s.Moves (s.unlock ch) := by
  unfold State.unlock
  split
  · rename_i hl
    exact (State.ChannelMove.unlocked hl).moves.trans (.elsewhere rfl)
  · exact .refl

theorem State.restart_moves : s.Moves s.restart := by
  have hended : s.Moves { s with session := none } := .sessionEnds rfl rfl
  obtain ⟨channels, heq, hch⟩ := State.restartChannels_spec { s with session := none }
  have hcleared : State.Moves { s with session := none } { s with session := none, channels } :=
    .channels (fun ch => .of_eq (hch ch) .restarted) rfl
  unfold State.restart
  rw [heq]
  exact (hended.trans hcleared).trans (.elsewhere rfl)

/-- A request under the authority check moves as its act does (R147). -/
theorem State.underSession_moves (source : Byte) (act : Session → Reply)
    (h : ∀ held, s.session = some held → s.Moves (act held).state) : s.Moves (s.underSession source act).state := by
  rcases s.underSession_cases source act with ⟨_, heq⟩ | ⟨_, _, _, heq⟩ | ⟨held, hs, _, heq⟩ <;> rw [heq]
  · exact .refl
  · exact .refl
  · exact h held hs

/-- A table read changes nothing (R12). -/
theorem State.readBank_state (source : Byte) (bank : BankName) (act : Bank → Reply) (h : ∀ b, (act b).state = s) :
    (s.readBank source bank act).state = s := by
  cases bank with
  | active => exact h _
  | shadow =>
    rcases s.underSession_cases source fun session => act session.shadow with
      ⟨_, heq⟩ | ⟨_, _, _, heq⟩ | ⟨held, _, _, heq⟩ <;> simp only [State.readBank, heq]
    · rfl
    · rfl
    · exact h _

/-- Every request's effect is a sequence of moves (R146 to R160). -/
theorem State.perform_moves (source : Byte) (r : Request) : s.Moves (s.perform source r).state := by
  have hsame : ∀ {t : State}, t = s → s.Moves t := fun h => h ▸ .refl
  cases r with
  | identify => exact .refl
  | readChannel channel =>
    change s.Moves (s.doReadChannel channel).state
    unfold State.doReadChannel
    split <;> exact .refl
  | readProfile bank slot =>
    refine hsame (s.readBank_state source bank _ fun b => ?_)
    split <;> rfl
  | readMap bank => exact hsame (s.readBank_state source bank _ fun b => rfl)
  | readPolicy bank => exact hsame (s.readBank_state source bank _ fun b => rfl)
  | readCounters group clear =>
    change s.Moves (if clear then s.clearGroup group else s)
    split
    · cases group <;> exact .elsewhere rfl
    · exact .refl
  | openSession =>
    change s.Moves (s.doOpenSession source).state
    unfold State.doOpenSession
    split
    · refine .session (fun held hheld => ?_) rfl
      obtain rfl := Option.some.inj hheld
      exact .copied
    · split <;> exact .refl
  | writeProfile slot p =>
    refine s.underSession_moves source _ fun held hs => ?_
    split
    · exact .refl
    · rename_i i _
      split
      · exact .refl
      · rename_i hp
        exact (State.ShadowMove.slot held hs i (some p) (by simpa using hp)).moves
  | clearProfile slot =>
    refine s.underSession_moves source _ fun held hs => ?_
    split
    · exact .refl
    · rename_i i _
      exact (State.ShadowMove.slot held hs i none (by simp)).moves
  | writeMap entries =>
    refine s.underSession_moves source _ fun held hs => ?_
    split
    · exact .refl
    · exact (State.ShadowMove.map held hs _).moves
  | writePolicy policy =>
    refine s.underSession_moves source _ fun held hs => ?_
    split
    · exact .refl
    · rename_i hp
      exact (State.ShadowMove.policy held hs policy hp).moves
  | commit =>
    refine s.underSession_moves source _ fun held hs => ?_
    split
    · exact .refl
    · rename_i hi
      exact s.changeOver_moves held hs hi
  | closeSession => exact s.underSession_moves source _ fun _ _ => .sessionEnds rfl rfl
  | unlockChannel channel =>
    refine s.underSession_moves source _ fun held hs => ?_
    split
    · exact .refl
    · exact s.unlock_moves _
  | ackReports number =>
    change s.Moves (s.doAckReports source number).state
    unfold State.doAckReports
    dsimp only
    split
    · exact .refl
    · split <;> exact .elsewhere rfl
  | warmRestart => exact s.underSession_moves source _ fun held hs => s.restart_moves

theorem Reply.finish_moves (r : Reply) (source tag kind : Byte) : r.state.Moves (r.finish source tag kind) :=
  (r.state.renewLease_moves source).trans (.elsewhere rfl)

theorem State.executeRequest_moves (source tag kind : Byte) (request : Option Request) :
    s.Moves (s.executeRequest source tag kind request) := by
  have hcounted : s.Moves { s with monitor := { s.monitor with requestExecuted := s.monitor.requestExecuted + 1 } } :=
    (.elsewhere rfl)
  refine (hcounted.trans ?_).trans (Reply.finish_moves _ source tag kind)
  cases request with
  | none => exact .refl
  | some r => exact State.perform_moves _ source r

theorem State.replay_moves (e : CacheEntry) : s.Moves (s.replay e) := by
  unfold State.replay
  split <;> exact .elsewhere rfl

theorem State.manage_moves (source tag kind : Byte) (request : Option Request) :
    s.Moves (s.manage source tag kind request) := by
  rcases s.manage_cases source tag kind request with ⟨e, _, heq⟩ | ⟨_, _, heq⟩ | ⟨_, _, heq⟩ <;> rw [heq]
  · exact s.replay_moves e
  · exact .elsewhere rfl
  · exact s.executeRequest_moves source tag kind request

theorem State.receiveRequest_moves (source tag : Byte) (r : Request) : s.Moves (s.receiveRequest source tag r) := by
  have hcounted : s.Moves s.countReceivedC := .elsewhere rfl
  unfold State.receiveRequest
  split
  · exact (hcounted.trans (State.manage_moves _ source tag _ _)).arbitrated
  · exact .refl

/-! Receipt. -/

theorem State.offerDfq_moves (f : Frame) : s.Moves (s.offerDfq f) := by
  unfold State.offerDfq
  split <;> exact .elsewhere rfl

theorem State.offerUfq_moves (f : Frame) : s.Moves (s.offerUfq f) := by
  unfold State.offerUfq
  split <;> exact .elsewhere rfl

theorem State.classifyC_moves (f : Frame) : s.Moves (s.classifyC f) := by
  unfold State.classifyC
  split
  · split
    · exact s.manage_moves _ _ _ _
    · exact .elsewhere rfl
  · exact s.offerDfq_moves f

theorem State.receiveC_moves (bytes : List Byte) : s.Moves (s.receiveC bytes) := by
  have hcounted : s.Moves s.countReceivedC := .elsewhere rfl
  unfold State.receiveC
  split
  · exact .elsewhere rfl
  · exact .elsewhere rfl
  · exact .elsewhere rfl
  · exact (hcounted.trans (State.classifyC_moves _ _)).arbitrated

theorem State.classifyD_moves (f : Frame) : s.Moves (s.classifyD f) := by
  refine State.Moves.trans ?_ (State.offerUfq_moves _ f)
  split
  · exact s.observe_moves f.payload
  · exact .refl

theorem State.receiveD_moves (bytes : List Byte) : s.Moves (s.receiveD bytes) := by
  have halive : s.Moves s.signOfLife := .elsewhere rfl
  have hcounted : s.Moves s.signOfLife.countReceivedD := halive.trans (.elsewhere rfl)
  unfold State.receiveD
  split
  · exact .elsewhere rfl
  · exact .elsewhere rfl
  · exact halive.trans (State.Moves.arbitrated (.elsewhere rfl))
  · exact (hcounted.trans (State.classifyD_moves _ _)).arbitrated

/-! Commands and steps. -/

theorem State.loseD_moves : s.Moves s.loseD := by
  have hlost : s.Moves { s with dPort := s.dPort.lose s.dfq.length, dfq := [] } := .elsewhere rfl
  unfold State.loseD
  dsimp only
  split
  · exact hlost.trans (State.fallSilent_moves _)
  · exact hlost

/-- A command's effect is a sequence of moves. -/
theorem exec_moves (i : Instr) {s t : State} (h : exec i s = .next t) : s.Moves t := by
  cases hr : i.request? with
  | some held =>
    obtain ⟨source, tag, r⟩ := held
    rw [exec_request s hr] at h
    cases h
    exact s.receiveRequest_moves source tag r
  | none =>
    cases i with
    | coldReset straps => cases h; exact (State.Move.reset straps rfl).moves
    | linkLossD => cases h; exact s.loseD_moves.arbitrated_ite _
    | linkLossC =>
      have hlost : s.Moves s.loseC := .elsewhere rfl
      cases h
      exact hlost.arbitrated_ite _
    | linkReturn port =>
      cases h
      cases port <;> exact State.Moves.arbitrated (.elsewhere rfl)
    | cPortReceipt bytes =>
      cases h
      split
      · exact s.receiveC_moves bytes
      · exact .refl
    | dPortReceipt bytes =>
      cases h
      split
      · exact s.receiveD_moves bytes
      · exact .refl
    | judgedDeparture =>
      cases h
      split
      · exact (State.departD_moves _ s true).arbitrated_ite _
      · exact .refl
    | dPortDeparture =>
      cases h
      split
      · split
        · exact .refl
        · exact State.Moves.arbitrated (.elsewhere rfl)
      · exact .refl
    | injectedDeparture => cases h; exact s.departInjection_moves.arbitrated_ite _
    | responseDeparture =>
      cases h
      refine State.Moves.arbitrated_ite ?_ _
      unfold State.departResponse
      split
      · exact .elsewhere rfl
      · exact .refl
    | reportDeparture =>
      cases h
      refine State.Moves.arbitrated_ite ?_ _
      unfold State.departReport
      split
      · exact .elsewhere rfl
      · exact .refl
    | ufqDeparture =>
      cases h
      refine State.Moves.arbitrated_ite ?_ _
      unfold State.departForward
      split
      · exact .elsewhere rfl
      · exact .refl
    | transmissionComplete port =>
      have hc : s.Moves { s with cPort := s.cPort.complete } := .elsewhere rfl
      have hd : s.Moves { s with dPort := s.dPort.complete } := .elsewhere rfl
      cases h
      cases port with
      | cPort => exact hc.arbitrated_ite _
      | dPort => exact hd.arbitrated_ite _
    | silenceExpiry => cases h; exact s.fallSilent_moves.arbitrated_ite _
    | retransmitExpiry =>
      have hexpired : s.Moves s.expireRetransmit := .elsewhere rfl
      cases h
      exact hexpired.arbitrated_ite _
    | leaseExpiry => cases h; exact s.expireLease_moves.arbitrated_ite _
    | _ => simp [Instr.request?] at hr

theorem State.idle_moves {s t : State} (h : s.idle = .next t) : s.Moves t := by
  unfold State.idle at h
  split at h
  · cases h; exact s.tick_moves
  · exact exec_moves _ h
  · have hcounted : s.Moves { s with freeCount := s.freeCount + 1 } := .elsewhere rfl
    exact hcounted.trans (exec_moves _ h)

/-- A step is a sequence of moves. -/
theorem step_moves {s t : State} (h : step s = .next t) : s.Moves t := by
  unfold step at h
  split at h
  · exact State.idle_moves h
  · rename_i rest _
    have htaken : s.Moves { s with pending := rest } := .elsewhere rfl
    exact htaken.trans (exec_moves _ h)

end Sys2Proof.Machine

/-! SUPPORT. The invariants that follow from the moves: the channel contexts (R18, R24, R40, R68, R69), the tables and
the generation (R2 to R9, R13, R14). -/

namespace Sys2Proof.Machine

/-! The channel contexts. -/

/-- A departed RELEASE keeps the counters of a context without an episode balanced (R68). -/
theorem Channel.released_balanced {c : Channel} (h : c.Balanced) : c.released.Balanced := h

theorem Channel.releasedByController_balanced {c : Channel} (h : c.Balanced) (he : c.episode = none) :
    c.releasedByController.Balanced := by
  simpa [Channel.Balanced, Channel.releasedByController, Channel.released, he] using h

/-- A channel that is not OPEN has no episode, if its context is sound (R40). -/
theorem Channel.Sound.episode_of_not_open {c : Channel} (h : c.Sound) (hd : c.disposition ≠ .open_) :
    c.episode = none := by
  obtain ⟨hepisode, _⟩ := h
  by_contra hn
  exact hd (hepisode (Option.isSome_iff_ne_none.2 hn)).2.2

/-- A channel with its injection pending is not OPEN, if its context is sound (R24). -/
theorem Channel.Sound.not_open_of_pending {c : Channel} (h : c.Sound) (hp : c.pendingInjection = true) :
    c.disposition ≠ .open_ := by
  obtain ⟨_, hpending, _⟩ := h
  exact (hpending hp).2

/-- Every move keeps a channel's context sound and its counters balanced. -/
theorem State.ChannelMove.sound {s : State} {ch : ChannelId} {c : Channel} (h : s.ChannelMove ch c)
    (hs : (s.channel ch).Sound) (hb : (s.channel ch).Balanced) : c.Sound ∧ c.Balanced := by
  cases h with
  | stays => exact ⟨hs, hb⟩
  | closed outcome =>
    obtain ⟨hsound, hbalanced, _⟩ := (s.channel ch).closeOutside_sound ch outcome hs hb
    exact ⟨hsound, hbalanced⟩
  | sampled x entry =>
    obtain ⟨hsound, hbalanced, _⟩ := (s.channel ch).handleFrame_sound ch x entry hs hb
    exact ⟨hsound, hbalanced⟩
  | energized opening ho =>
    obtain ⟨hsound, hbalanced, hepisode, _⟩ := (s.channel ch).closeOutside_sound ch .superseded hs hb
    obtain ⟨hdisposition, _⟩ := (s.channel ch).closeOutside_keeps ch .superseded rfl
    exact Channel.energize_sound _ _ opening hsound (hdisposition.trans ho) hbalanced hepisode
  | freed =>
    obtain ⟨hsound, hbalanced, hepisode, _⟩ := (s.channel ch).closeOutside_sound ch .releasedEarly hs hb
    exact ⟨Channel.releasedByController_sound _ hsound, Channel.releasedByController_balanced hbalanced hepisode⟩
  | released hr =>
    have hclosed : (s.channel ch).disposition ≠ .open_ := hr.elim id hs.not_open_of_pending
    exact ⟨(s.channel ch).released_sound hs (hs.episode_of_not_open hclosed), Channel.released_balanced hb⟩
  | unlocked hl => exact (s.channel ch).unlocked_sound hs hb hl
  | restarted => exact (s.channel ch).restart_sound hs

theorem State.coldReset_channel (s : State) (straps : BitVec 3) (ch : ChannelId) :
    (s.coldReset straps).channel ch = Channel.reset := by
  simp [State.channel, State.coldReset, State.reset]

/-- Every move keeps the channel contexts sound and their counters balanced. -/
theorem State.Move.channels_sound {s t : State} (h : s.Move t) (hs : s.ChannelsSound ∧ s.ChannelsBalanced) :
    t.ChannelsSound ∧ t.ChannelsBalanced := by
  obtain ⟨hsound, hbalanced⟩ := hs
  suffices key : ∀ ch : ChannelId, (t.channel ch).Sound ∧ (t.channel ch).Balanced from
    ⟨fun ch => (key ch).1, fun ch => (key ch).2⟩
  intro ch
  cases h with
  | reset straps ht => rw [ht, State.coldReset_channel]; exact Channel.reset_sound
  | channels hc _ => exact (hc ch).sound (hsound ch) (hbalanced ch)
  | session _ h =>
    obtain ⟨_, _, _, hchannels⟩ := by simpa only [Prod.mk.injEq] using h
    rw [State.channel_congr hchannels ch]
    exact ⟨hsound ch, hbalanced ch⟩
  | commit held _ _ h =>
    obtain ⟨_, _, _, _, hchannels⟩ := by simpa only [Prod.mk.injEq] using h
    rw [State.channel_congr hchannels ch]
    exact ⟨hsound ch, hbalanced ch⟩

/-! The snapshots. -/

theorem Channel.close_snapshot (c : Channel) (ch : ChannelId) (sn : Snapshot) (e : Episode) (outcome : EpisodeOutcome)
    (r : Option Nat) : (c.close ch sn e outcome r).1.snapshot = c.snapshot := by
  obtain ⟨_, _, hsnapshot, _⟩ := c.close_fields ch sn e outcome r
  exact hsnapshot

theorem Channel.closeOutside_snapshot (c : Channel) (ch : ChannelId) (outcome : EpisodeOutcome) :
    (c.closeOutside ch outcome).1.snapshot = c.snapshot := by
  unfold Channel.closeOutside
  split
  · exact c.close_snapshot ch _ _ outcome none
  · rfl

theorem Channel.decideLock_snapshot (c : Channel) (ch : ChannelId) (sn : Snapshot) :
    (c.decideLock ch sn).1.snapshot = c.snapshot := by
  rcases c.decideLock_cases ch sn with ⟨_, heq⟩ | ⟨_, heq⟩ <;> rw [heq]

theorem Channel.checkOvercurrent_snapshot (c : Channel) (ch : ChannelId) (x : Half) (entry : Option SampleEntry) :
    (c.checkOvercurrent ch x entry).1.snapshot = c.snapshot := by
  unfold Channel.checkOvercurrent
  split
  · split
    · exact Channel.decideLock_snapshot _ ch _
    · rfl
  · rfl

/-- An accepted frame leaves the snapshot alone (R17, R45). -/
theorem Channel.handleFrame_snapshot (c : Channel) (ch : ChannelId) (x : Half) (entry : Option SampleEntry) :
    (c.handleFrame ch x entry).1.snapshot = c.snapshot := by
  unfold Channel.handleFrame
  split
  · split
    · rfl
    · exact c.close_snapshot ch _ _ _ _
    · exact c.trip.close_snapshot ch _ _ _ _
  · exact c.checkOvercurrent_snapshot ch x entry

theorem Channel.energize_snapshot (c : Channel) (snapshot : Option Snapshot) (opening : Option Half) :
    (c.energize snapshot opening).snapshot = snapshot := by
  cases snapshot <;> cases opening <;> rfl

/-- A move keeps a channel's snapshot, drops it, or takes that of the ACTIVE map (R17, R18). -/
theorem State.ChannelMove.snapshot_cases {s : State} {ch : ChannelId} {c : Channel} (h : s.ChannelMove ch c) :
    c.snapshot = (s.channel ch).snapshot ∨ c.snapshot = none ∨ c.snapshot = s.snapshotFor ch := by
  cases h with
  | stays => exact .inl rfl
  | closed outcome => exact .inl ((s.channel ch).closeOutside_snapshot ch outcome)
  | sampled x entry => exact .inl ((s.channel ch).handleFrame_snapshot ch x entry)
  | energized opening _ => exact .inr (.inr (Channel.energize_snapshot _ _ opening))
  | freed => exact .inr (.inl rfl)
  | released _ => exact .inr (.inl rfl)
  | unlocked _ => exact .inl rfl
  | restarted => exact .inl rfl

/-- The snapshot that an ENERGIZE takes holds the record of the mapped slot, under the generation in force (R17). -/
theorem State.snapshotFor_some {s : State} {ch : ChannelId} {sn : Snapshot} (h : s.snapshotFor ch = some sn) :
    s.active.map[ch.val] = some sn.index ∧ s.active.slots[sn.index.val] = some sn.profile ∧
      sn.generation = s.generation := by
  unfold State.snapshotFor at h
  split at h
  · rename_i slot hmap
    obtain ⟨p, hp, rfl⟩ := Option.map_eq_some_iff.1 h
    exact ⟨hmap, hp, rfl⟩
  · cases h

/-! The tables. -/

/-- A slot of a valid bank replaced by a record that passed its checks, or emptied, leaves the bank valid (R5, R6). -/
theorem Bank.setSlot_valid {b : Bank} {own : Byte} (h : b.Valid own) (i : SlotIndex) (p : Option Profile)
    (hp : ∀ x ∈ p, x.badField = none) : (b.setSlot i p).Valid own := by
  obtain ⟨hslots, hpolicy⟩ := h
  refine ⟨fun j => ?_, hpolicy⟩
  rcases eq_or_ne i.val j.val with hij | hij
  · simpa [Bank.setSlot, hij] using hp
  · simpa [Bank.setSlot, Vector.getElem_set_ne, hij] using hslots j

/-- Every move of SHADOW keeps it valid (R2 to R9, R10). -/
theorem State.ShadowMove.valid {s : State} {b : Bank} (h : s.ShadowMove b) (ha : s.active.Valid s.ownAddress)
    (hs : ∀ session ∈ s.session, session.shadow.Valid s.ownAddress) : b.Valid s.ownAddress := by
  cases h with
  | copied => exact ha
  | kept held hheld => exact hs held hheld
  | slot held hheld i p hp => exact Bank.setSlot_valid (hs held hheld) i p hp
  | map held hheld map => exact hs held hheld
  | policy held hheld policy hp => exact ⟨(hs held hheld).1, hp⟩

theorem nextGeneration_ne_zero (g : Half) : nextGeneration g ≠ 0 := by
  unfold nextGeneration
  split
  · decide
  · rename_i h
    bv_omega

theorem strapAddress_range (straps : BitVec 3) :
    0x70 ≤ (strapAddress straps).toNat ∧ (strapAddress straps).toNat ≤ 0x77 := by
  revert straps; decide

/-- The bank after cold reset is valid under every own address that straps give (R1, R178). -/
theorem Bank.reset_valid (straps : BitVec 3) : Bank.reset.Valid (strapAddress straps) := by
  refine ⟨by simp [Bank.reset], ?_⟩
  revert straps; decide

theorem Bank.reset_consistent : Bank.reset.inconsistentChannel = none := by decide

/-- The own address, the tables, the generation and the snapshots, in one predicate (R2 to R9, R13, R14, R178). -/
abbrev State.StoreSound (s : State) : Prop := s.AddressSound ∧ s.TablesSound ∧ s.GenerationSound

theorem State.coldReset_storeSound (s : State) (straps : BitVec 3) : (s.coldReset straps).StoreSound := by
  have hsnapshot : ∀ ch : ChannelId, ((s.coldReset straps).channel ch).snapshot = none := fun ch => by
    rw [State.coldReset_channel]; rfl
  have hmap : ∀ ch : ChannelId, Bank.reset.map[ch.val] = none := fun ch => by simp [Bank.reset]
  refine ⟨strapAddress_range straps, ⟨Bank.reset_valid straps, nofun, ?_, Bank.reset_consistent⟩, fun _ => hmap, ?_⟩
  · simp [hsnapshot]
  · simp [hsnapshot]

/-- Every move keeps the own address, the tables, the generation and the snapshots sound. -/
theorem State.Move.storeSound {s t : State} (h : s.Move t) (hs : s.StoreSound) : t.StoreSound := by
  cases h with
  | reset straps ht => rw [ht]; exact s.coldReset_storeSound straps
  | channels hc h =>
    simp only [Prod.mk.injEq] at h
    obtain ⟨ho, ha, hg, hsession⟩ := h
    obtain ⟨haddress, ⟨hactive, hshadow, hprofile, hconsistent⟩, hunmapped, hgeneration⟩ := hs
    have hsnapshot : ∀ ch : ChannelId, ∀ sn ∈ (t.channel ch).snapshot,
        sn.profile.badField = none ∧ sn.generation ≠ 0 := by
      intro ch sn hsn
      rcases (hc ch).snapshot_cases with heq | heq | heq <;> rw [heq] at hsn
      · exact ⟨hprofile ch sn hsn, hgeneration ch sn hsn⟩
      · cases hsn
      · obtain ⟨hmap, hslot, heq⟩ := State.snapshotFor_some hsn
        refine ⟨hactive.1 sn.index sn.profile hslot, fun hz => ?_⟩
        rw [hunmapped (heq ▸ hz) ch] at hmap
        cases hmap
    simp only [State.StoreSound, State.AddressSound, State.TablesSound, State.GenerationSound, ho, ha, hg, hsession]
    exact ⟨haddress, ⟨hactive, hshadow, fun ch sn hsn => (hsnapshot ch sn hsn).1, hconsistent⟩, hunmapped,
      fun ch sn hsn => (hsnapshot ch sn hsn).2⟩
  | session hnew h =>
    simp only [Prod.mk.injEq] at h
    obtain ⟨ho, ha, hg, hchannels⟩ := h
    obtain ⟨haddress, ⟨hactive, hshadow, hprofile, hconsistent⟩, hunmapped, hgeneration⟩ := hs
    simp only [State.StoreSound, State.AddressSound, State.TablesSound, State.GenerationSound, ho, ha, hg,
      State.channel_congr hchannels]
    exact ⟨haddress, ⟨hactive, fun held hheld => (hnew held hheld).valid hactive hshadow, hprofile, hconsistent⟩,
      hunmapped, hgeneration⟩
  | commit held hheld hi h =>
    simp only [Prod.mk.injEq] at h
    obtain ⟨ho, ha, hg, hsession, hchannels⟩ := h
    obtain ⟨haddress, ⟨_, hshadow, hprofile, _⟩, _, hgeneration⟩ := hs
    simp only [State.StoreSound, State.AddressSound, State.TablesSound, State.GenerationSound, ho, ha, hg, hsession,
      State.channel_congr hchannels]
    exact ⟨haddress, ⟨hshadow held hheld, nofun, hprofile, hi⟩, fun hz => absurd hz (nextGeneration_ne_zero _),
      hgeneration⟩

/-- Settles O50: each kind of move keeps every context sound and balanced, and a step is a sequence of moves. -/
theorem stepKeepsChannelsSoundAndBalanced : Obligations.StepKeepsChannelsSoundAndBalanced :=
  fun _ _ hsound hbalanced hstep =>
    (step_moves hstep).keeps (fun _ _ hm => hm.channels_sound) ⟨hsound, hbalanced⟩

/-- Settles O53: each kind of move keeps the tables, the generation and the own address sound, and a step is a sequence
of moves. -/
theorem stepKeepsTablesSound : Obligations.StepKeepsTablesSound :=
  fun _ _ haddress htables hgeneration hstep =>
    (step_moves hstep).keeps (fun _ _ hm => hm.storeSound) ⟨haddress, htables, hgeneration⟩

end Sys2Proof.Machine

/-! SUPPORT. The checks of written records (R5, R7, R9, R13), and the statements on the table requests, the session, the
lease and reset. -/

namespace Sys2Proof

/-! The first failing check. -/

theorem firstFailure_eq_none_iff (l : List (Byte × Bool)) : firstFailure l = none ↔ ∀ c ∈ l, c.2 = true := by
  simp [firstFailure]

/-- The check that fails behind checks that pass names the failure (R5, R9). -/
theorem firstFailure_append (before after : List (Byte × Bool)) (code : Byte) (h : ∀ c ∈ before, c.2 = true) :
    firstFailure (before ++ (code, false) :: after) = some code := by
  have hbefore : before.find? (fun c => !c.2) = none := by simpa using h
  simp [firstFailure, List.find?_append, hbefore]

theorem firstFailure_cons (code : Byte) (b : Bool) (l : List (Byte × Bool)) :
    firstFailure ((code, b) :: l) = if b = true then firstFailure l else some code := by
  cases b <;> simp [firstFailure]

@[simp] theorem inRange_iff (low n high : Nat) : inRange low n high = true ↔ low ≤ n ∧ n ≤ high := by
  simp [inRange]

theorem inRange_eq_decide (low n high : Nat) : inRange low n high = decide (low ≤ n ∧ n ≤ high) := by
  simp [inRange]

/-! Profiles. -/

/-- No core field fails exactly when the ranges and relations of R2 hold. -/
theorem Profile.coreChecks_pass_iff (p : Profile) : (∀ c ∈ p.coreChecks, c.2 = true) ↔
    1 ≤ p.openLevel ∧ p.openLevel < p.hitLevel ∧ p.hitLevel < p.ocLevel ∧ p.ocLevel ≤ 32767 ∧
      1 ≤ p.openDeadline ∧ p.openDeadline ≤ 255 ∧ p.openDeadline ≤ p.hitDeadline ∧ p.hitDeadline ≤ 1023 ∧
      p.settle ≤ 255 ∧ p.gapLimit ≤ 15 ∧ p.lockAfter ≤ 15 := by
  simp only [Profile.coreChecks, List.forall_mem_cons, inRange_iff]
  constructor
  · rintro ⟨_, _, _, _, _, _, _, _, _⟩; omega
  · rintro ⟨_, _, _, _, _, _, _, _, _, _, _⟩
    refine ⟨?_, ?_, ?_, ?_, ?_, ?_, ?_, ?_, by simp⟩ <;> omega

/-- No motion field fails exactly when the ranges and relations of R3 hold. -/
theorem MotionGroup.checks_pass_iff (m : MotionGroup) : (∀ c ∈ m.checks, c.2 = true) ↔
    1 ≤ m.peakDrop ∧ m.peakDrop ≤ 4095 ∧ 1 ≤ m.valleyRise ∧ m.valleyRise ≤ 4095 ∧
      m.reactionMin < m.reactionMax ∧ m.reactionMax ≤ 1023 ∧ m.travelMin < m.travelMax ∧ m.travelMax ≤ 1023 := by
  simp only [MotionGroup.checks, List.forall_mem_cons, inRange_iff]
  constructor
  · rintro ⟨_, _, _, _, _, _, _⟩; omega
  · rintro ⟨_, _, _, _, _, _, _, _⟩
    refine ⟨?_, ?_, ?_, ?_, ?_, ?_, by simp⟩ <;> omega

/-- No measure field fails exactly when the ranges and relations of R4 hold. -/
theorem MeasureGroup.checks_pass_iff (g : MeasureGroup) : (∀ c ∈ g.checks, c.2 = true) ↔
    1 ≤ g.window ∧ g.window ≤ 64 ∧ 1 ≤ g.rMin ∧ g.rMin < g.rMax ∧ g.rMax ≤ 4000000 := by
  simp only [MeasureGroup.checks, List.forall_mem_cons, inRange_iff]
  constructor
  · rintro ⟨_, _, _, _⟩; omega
  · rintro ⟨_, _, _, _, _⟩
    refine ⟨?_, ?_, ?_, by simp⟩ <;> omega

/-- No field fails exactly when none of the core's does, nor of a group that is present (R5). -/
theorem Profile.badField_eq_none_iff (p : Profile) : p.badField = none ↔
    (∀ c ∈ p.coreChecks, c.2 = true) ∧ (∀ m ∈ p.motion, ∀ c ∈ m.checks, c.2 = true) ∧
      ∀ g ∈ p.measure, ∀ c ∈ g.checks, c.2 = true := by
  rw [Profile.badField, firstFailure_eq_none_iff, Profile.checks, List.forall_mem_append, List.forall_mem_append,
    and_assoc]
  cases p.motion <;> cases p.measure <;> simp

/-- Settles O35: the core and each group that is present pass exactly when their ranges and relations hold. -/
theorem profileChecksAreTheRanges : Obligations.ProfileChecksAreTheRanges := fun p => by
  simp only [Profile.badField_eq_none_iff, Profile.coreChecks_pass_iff, MotionGroup.checks_pass_iff,
    MeasureGroup.checks_pass_iff]

/-! Policies. -/

/-- The first policy value that fails, in the order of R8; supply_low has no value in its two bytes that fails. -/
theorem Policy.badField_eq {p : Policy} (hfits : p.fits = true) (own : Byte) : p.badField own =
    if p.driverAddress = 0x00 ∨ p.driverAddress = 0xFF ∨ p.driverAddress = own then some 0x30
    else if p.sinkAddress = 0xFF ∨ p.sinkAddress = own then some 0x31
    else if p.retransmitMs < 10 ∨ 1000 < p.retransmitMs then some 0x32
    else if p.silenceMs < 2 ∨ 250 < p.silenceMs then some 0x33
    else if p.supplyLow ≠ 0 ∧ p.supplyOk < p.supplyLow then some 0x35
    else none := by
  obtain ⟨⟨_, hlow⟩, hok⟩ : ((_ ∧ _) ∧ p.supplyLow < 65536) ∧ p.supplyOk < 65536 := by
    simpa [Policy.fits] using hfits
  have hdriver : (p.driverAddress != 0x00#8 && p.driverAddress != 0xFF#8 && p.driverAddress != own) = true ↔
      ¬(p.driverAddress = 0x00 ∨ p.driverAddress = 0xFF ∨ p.driverAddress = own) := by
    simp [and_assoc]
  have hsink : (p.sinkAddress != 0xFF#8 && p.sinkAddress != own) = true ↔
      ¬(p.sinkAddress = 0xFF ∨ p.sinkAddress = own) := by simp
  have hretransmit : inRange 10 p.retransmitMs 1000 = true ↔ ¬(p.retransmitMs < 10 ∨ 1000 < p.retransmitMs) := by
    rw [inRange_iff]; omega
  have hsilence : inRange 2 p.silenceMs 250 = true ↔ ¬(p.silenceMs < 2 ∨ 250 < p.silenceMs) := by
    rw [inRange_iff]; omega
  have hsupplyLow : inRange 0 p.supplyLow 65535 = true := by rw [inRange_iff]; omega
  have hsupplyOk : (p.supplyLow == 0 || inRange p.supplyLow p.supplyOk 65535) = true ↔
      ¬(p.supplyLow ≠ 0 ∧ p.supplyOk < p.supplyLow) := by
    rw [Bool.or_eq_true, inRange_iff, beq_iff_eq]; omega
  have hnil : firstFailure [] = none := rfl
  simp only [Policy.badField, Policy.checks, firstFailure_cons, hdriver, hsink, hretransmit, hsilence, hsupplyLow,
    hsupplyOk, hnil, ite_not, if_true]
  rfl

/-! The layout of a record. -/

/-- A record as 10.4 lays it out, each group that is absent left out. -/
theorem Profile.bytes_eq (p : Profile) : p.bytes =
    flagByte p.motion.isSome :: flagByte p.measure.isSome ::
      (bytes2 p.openLevel ++ [BitVec.ofNat 8 p.openDeadline] ++ bytes2 p.hitLevel ++ bytes2 p.hitDeadline ++
        bytes2 p.ocLevel ++ [BitVec.ofNat 8 p.settle, BitVec.ofNat 8 p.gapLimit, BitVec.ofNat 8 p.lockAfter] ++
        (p.motion.elim [] fun m => bytes2 m.peakDrop ++ bytes2 m.valleyRise ++ bytes2 m.reactionMin ++
          bytes2 m.reactionMax ++ bytes2 m.travelMin ++ bytes2 m.travelMax) ++
        p.measure.elim [] fun g => BitVec.ofNat 8 g.window :: bytes4 g.rMin ++ bytes4 g.rMax) := by
  unfold Profile.bytes Profile.fieldBytes
  cases p.motion <;> cases p.measure <;> rfl

end Sys2Proof

namespace Sys2Proof.Machine

variable (s : State)

/-! Requests that are executed. -/

/-- A request row that is executed and whose performance comes to a state and an answer: that state, answered (R140). -/
theorem exec_answered {s u : State} {i : Instr} {source tag kind : Byte} {r : Request} {status : Status}
    {results : List Byte} (h : i.request? = some (source, tag, r)) (hk : r.code = kind)
    (hd : s.Deliverable source tag) (hp : s.counted.perform source r = u.counted.answer status results) :
    exec i s = .next (u.answered source tag kind status results) := by
  rw [exec_delivered s h hd, hp, State.answer_finish, hk]

/-! The session. -/

/-- The lease of the holder starts again with every executed request, so that starting it is no more (R148). -/
theorem State.answered_leaseTicks {s : State} {source : Byte} {session : Session} (h : s.Holds source session)
    (tag kind : Byte) (status : Status) (results : List Byte) :
    State.answered { s with session := some { session with lease := leaseTicks } } source tag kind status results =
      s.answered source tag kind status results := by
  obtain ⟨hs, hh⟩ := h
  have hrenewed : renewed (some { session with lease := leaseTicks }) source = renewed s.session source := by
    simp [renewed, hs, hh]
  simp only [State.answered, hrenewed]
  rfl

/-- The three answers to OPEN_SESSION (R146). -/
theorem State.doOpenSession_free (source : Byte) (h : s.session = none) : s.doOpenSession source =
    State.answer { s with session := some { holder := source, lease := leaseTicks, shadow := s.active } } .ok
      (0x00#8 :: halfBytes s.generation) := by
  simp [State.doOpenSession, h, State.answer]

theorem State.doOpenSession_holder {source : Byte} {session : Session} (h : s.Holds source session) :
    s.doOpenSession source = s.answer .ok (0x01#8 :: halfBytes s.generation) := by
  simp [State.doOpenSession, h.1, h.2]

theorem State.doOpenSession_held {source : Byte} {session : Session} (h : s.session = some session)
    (hh : session.holder ≠ source) : s.doOpenSession source = s.answer .held := by
  simp [State.doOpenSession, h, hh]

/-- Settles O33, by the three cases of R146 and the authority check of R147. -/
theorem openSessionTakesOrRenews : Obligations.OpenSessionTakesOrRenews := by
  intro s source tag hd
  refine ⟨fun hs => ?_, fun session hh => ?_, fun session hs hne => ?_, fun session hh => ?_⟩
  · exact exec_answered rfl rfl hd (s.counted.doOpenSession_free source hs)
  · have hp : s.counted.perform source .openSession = s.counted.answer .ok (0x01#8 :: halfBytes s.generation) :=
      s.counted.doOpenSession_holder hh
    rw [exec_answered rfl rfl hd hp, ← State.answered_leaseTicks hh]
    rfl
  · exact exec_answered rfl rfl hd (s.counted.doOpenSession_held hs hne)
  · exact exec_answered rfl rfl hd (s.counted_underSession source _ session hh)

/-- The lease's ticks have passed exactly where a session is held with none left (R148). -/
theorem State.leaseDue_iff : s.leaseDue = true ↔ ∃ session, s.session = some session ∧ session.lease = 0 := by
  unfold State.leaseDue
  cases s.session <;> simp

/-- Settles O29, by whether the lease's ticks have passed. -/
theorem leaseExpiryEndsTheSession : Obligations.LeaseExpiryEndsTheSession := by
  intro s
  have hexec : exec .leaseExpiry s = .next (if s.leaseDue then s.expireLease.arbitrate else s) := rfl
  refine ⟨fun hrunning => ?_, fun session hs hlease => ?_⟩
  · have hdue : ¬s.leaseDue = true := fun h => by
      obtain ⟨session, hs, hlease⟩ := s.leaseDue_iff.1 h
      exact hrunning session hs hlease
    rw [hexec, if_neg hdue]
  · rw [hexec, if_pos (s.leaseDue_iff.2 ⟨session, hs, hlease⟩), State.expireLease, hs]
    rfl

/-! Table reads. -/

/-- The bank that a read names is read where it is ACTIVE, or SHADOW read by the holder (R12, R147). -/
theorem State.readBank_named {source : Byte} {bank : BankName} {b : Bank}
    (h : bank = .active ∧ b = s.active ∨ bank = .shadow ∧ ∃ session, s.Holds source session ∧ b = session.shadow)
    (act : Bank → Reply) : s.readBank source bank act = act b := by
  rcases h with ⟨rfl, rfl⟩ | ⟨rfl, session, hh, rfl⟩
  · rfl
  · exact s.underSession_holder source _ session hh

/-- Settles O31: the bank that is named is read, and its content laid out as 10.4 and 10.5 say. -/
theorem tableReadsReturnTheBank : Obligations.TableReadsReturnTheBank := by
  intro s source tag bank b hd hb
  have hread := s.counted.readBank_named (source := source) hb
  refine ⟨fun slot i hi => ?_, fun slot hslot => ?_, ?_, ?_⟩
  · have hp : s.counted.perform source (.readProfile bank slot) =
        s.counted.answer .ok (bank.code :: slot :: slotBytes b.slots[i.val]) := by
      rw [State.perform, State.doReadProfile, hread, slotOf_eq hi]
    refine (exec_answered rfl rfl hd hp).trans ?_
    cases b.slots[i.val] with
    | none => rfl
    | some p => simp only [slotBytes, Profile.bytes_eq]; rfl
  · have hp : s.counted.perform source (.readProfile bank slot) = s.counted.answer .badIndex := by
      rw [State.perform, State.doReadProfile, hread, slotOf_none hslot]
    exact exec_answered rfl rfl hd hp
  · have hp : s.counted.perform source (.readMap bank) =
        s.counted.answer .ok (bank.code :: b.map.toList.map mapByte) := by
      rw [State.perform, State.doReadMap, hread]
    have hentry : (mapByte : Option SlotIndex → Byte) = fun entry =>
        match entry with
        | some slot => BitVec.ofNat 8 slot.val
        | none => 0xFF := by
      funext entry; cases entry <;> rfl
    rw [exec_answered rfl rfl hd hp, hentry]
    rfl
  · have hp : s.counted.perform source (.readPolicy bank) = s.counted.answer .ok (bank.code :: b.policy.bytes) := by
      rw [State.perform, State.doReadPolicy, hread]
    exact exec_answered rfl rfl hd hp

/-! Profile writes. -/

/-- WRITE_PROFILE of the holder, by the slot and the first field that fails (R5). -/
theorem State.doWriteProfile_badIndex {source slot : Byte} {session : Session} (h : s.Holds source session)
    (p : Profile) (hslot : 32 ≤ slot.toNat) : s.doWriteProfile source slot p = s.answer .badIndex := by
  rw [State.doWriteProfile, s.underSession_holder source _ session h, slotOf_none hslot]

theorem State.doWriteProfile_badValue {source slot : Byte} {session : Session} (h : s.Holds source session)
    {p : Profile} {i : SlotIndex} (hslot : slot.toNat = i.val) {code : Byte} (hp : p.badField = some code) :
    s.doWriteProfile source slot p = s.answer .badValue [code] := by
  rw [State.doWriteProfile, s.underSession_holder source _ session h]
  simp only [slotOf_eq hslot, hp]

theorem State.doWriteProfile_ok {source slot : Byte} {session : Session} (h : s.Holds source session)
    {p : Profile} {i : SlotIndex} (hslot : slot.toNat = i.val) (hp : p.badField = none) :
    s.doWriteProfile source slot p =
      State.answer (s.withShadow session (session.shadow.setSlot i (some p))) .ok := by
  rw [State.doWriteProfile, s.underSession_holder source _ session h]
  simp only [slotOf_eq hslot, hp]
  rfl

/-- CLEAR_PROFILE of the holder (R6). -/
theorem State.doClearProfile_badIndex {source slot : Byte} {session : Session} (h : s.Holds source session)
    (hslot : 32 ≤ slot.toNat) : s.doClearProfile source slot = s.answer .badIndex := by
  rw [State.doClearProfile, s.underSession_holder source _ session h, slotOf_none hslot]

theorem State.doClearProfile_ok {source slot : Byte} {session : Session} (h : s.Holds source session)
    {i : SlotIndex} (hslot : slot.toNat = i.val) :
    s.doClearProfile source slot = State.answer (s.withShadow session (session.shadow.setSlot i none)) .ok := by
  rw [State.doClearProfile, s.underSession_holder source _ session h, slotOf_eq hslot]
  rfl

/-- Settles O34: the checks of the statement are those of the record, in the same order. -/
theorem writeProfileChecksThenWrites : Obligations.WriteProfileChecksThenWrites := by
  intro s source tag slot p session hd hh core motion measure checks
  have hchecks : checks = p.checks := by
    simp only [checks, core, motion, measure, Profile.checks, Profile.coreChecks, inRange_eq_decide, Nat.zero_le,
      true_and]
    cases p.motion <;> cases p.measure <;>
      simp only [Option.elim, Option.map, Option.getD, MotionGroup.checks, MeasureGroup.checks, inRange_eq_decide,
        Nat.zero_le, true_and] <;> rfl
  have hh' : s.counted.Holds source session := hh
  refine ⟨fun hslot => ?_, fun before code after hslot heq hpass => ?_, fun i hi hpass => ?_, fun hslot => ?_,
    fun i hi => ?_⟩
  · exact exec_answered rfl rfl hd (s.counted.doWriteProfile_badIndex hh' p hslot)
  · have hbad : p.badField = some code := by
      rw [Profile.badField, ← hchecks, heq, firstFailure_append before after code hpass]
    exact exec_answered rfl rfl hd (s.counted.doWriteProfile_badValue (i := ⟨slot.toNat, hslot⟩) hh' rfl hbad)
  · have hgood : p.badField = none := by rwa [Profile.badField, ← hchecks, firstFailure_eq_none_iff]
    exact exec_answered rfl rfl hd (s.counted.doWriteProfile_ok hh' hi hgood)
  · exact exec_answered rfl rfl hd (s.counted.doClearProfile_badIndex hh' hslot)
  · exact exec_answered rfl rfl hd (s.counted.doClearProfile_ok hh' hi)

/-! Map writes. -/

theorem mapEntryValid_iff (b : Byte) : mapEntryValid b = true ↔ b.toNat < 32 ∨ b = 0xFF#8 := by
  simp [mapEntryValid]

/-- The lowest channel with a bad entry is named (R7). -/
theorem badMapEntry_some {entries : Vector Byte 16} {ch : ChannelId} (hbad : mapEntryValid entries[ch.val] = false)
    (hlow : ∀ c : ChannelId, c < ch → mapEntryValid entries[c.val] = true) :
    badMapEntry entries = some (BitVec.ofNat 8 (0x20 + ch.val)) := by
  have hfind : entries.toList.findIdx? (fun b => !mapEntryValid b) = some ch.val := by
    refine List.findIdx?_eq_some_iff_getElem.2 ⟨by simp, by simp [hbad], fun j hj => ?_⟩
    simpa using hlow ⟨j, hj.trans ch.isLt⟩ hj
  rw [badMapEntry, hfind, Option.map_some]

theorem badMapEntry_none {entries : Vector Byte 16} (h : ∀ c : ChannelId, mapEntryValid entries[c.val] = true) :
    badMapEntry entries = none := by
  have hfind : entries.toList.findIdx? (fun b => !mapEntryValid b) = none := by
    refine List.findIdx?_eq_none_iff.2 fun b hb => ?_
    obtain ⟨k, hk, rfl⟩ := List.mem_iff_getElem.1 hb
    simpa using h ⟨k, by simpa using hk⟩
  rw [badMapEntry, hfind, Option.map_none]

theorem mapOfBytes_getElem (entries : Vector Byte 16) (ch : ChannelId) :
    (mapOfBytes entries)[ch.val] = slotOf entries[ch.val] := by
  simp [mapOfBytes]

/-- WRITE_MAP of the holder, by the lowest bad entry (R7). -/
theorem State.doWriteMap_badValue {source : Byte} {session : Session} (h : s.Holds source session)
    {entries : Vector Byte 16} {code : Byte} (hbad : badMapEntry entries = some code) :
    s.doWriteMap source entries = s.answer .badValue [code] := by
  rw [State.doWriteMap, s.underSession_holder source _ session h, hbad]

theorem State.doWriteMap_ok {source : Byte} {session : Session} (h : s.Holds source session)
    {entries : Vector Byte 16} (hgood : badMapEntry entries = none) : s.doWriteMap source entries =
      State.answer (s.withShadow session { session.shadow with map := mapOfBytes entries }) .ok := by
  rw [State.doWriteMap, s.underSession_holder source _ session h, hgood]
  rfl

/-- Settles O36: the lowest bad entry is named, and entries that are all valid spell the map. -/
theorem writeMapChecksThenReplaces : Obligations.WriteMapChecksThenReplaces := by
  intro s source tag entries session hd hh
  have hh' : s.counted.Holds source session := hh
  refine ⟨fun ch hbig hne hlow => ?_, fun hvalid => ⟨mapOfBytes entries, ?_, fun c => ⟨fun i hi => ?_, fun hff => ?_⟩⟩⟩
  · have hbad : mapEntryValid entries[ch.val] = false := by
      rw [Bool.eq_false_iff, ne_eq, mapEntryValid_iff]
      rintro (hsmall | hff)
      · omega
      · exact hne hff
    have hnamed := badMapEntry_some hbad fun c hc => (mapEntryValid_iff _).2 (hlow c hc)
    exact exec_answered rfl rfl hd (s.counted.doWriteMap_badValue hh' hnamed)
  · have hgood := badMapEntry_none fun c => (mapEntryValid_iff _).2 (hvalid c)
    exact exec_answered rfl rfl hd (s.counted.doWriteMap_ok hh' hgood)
  · rw [mapOfBytes_getElem, slotOf_eq hi]
  · rw [mapOfBytes_getElem, hff]; rfl

/-! Policy writes. -/

/-- WRITE_POLICY of the holder, by the first value that fails (R9). -/
theorem State.doWritePolicy_badValue {source : Byte} {session : Session} (h : s.Holds source session) {p : Policy}
    {code : Byte} (hbad : p.badField s.ownAddress = some code) :
    s.doWritePolicy source p = s.answer .badValue [code] := by
  rw [State.doWritePolicy, s.underSession_holder source _ session h]
  simp only [hbad]

theorem State.doWritePolicy_ok {source : Byte} {session : Session} (h : s.Holds source session) {p : Policy}
    (hgood : p.badField s.ownAddress = none) :
    s.doWritePolicy source p = State.answer (s.withShadow session { session.shadow with policy := p }) .ok := by
  rw [State.doWritePolicy, s.underSession_holder source _ session h]
  simp only [hgood]
  rfl

/-- Settles O37: the six checks stand in the order of R8, and the numbers' own bytes leave the check of supply_low
nothing to refuse. -/
theorem writePolicyChecksThenReplaces : Obligations.WritePolicyChecksThenReplaces := by
  intro s source tag p session hfits hd hh driverBad sinkBad retransmitBad silenceBad okBad refused
  have hh' : s.counted.Holds source session := hh
  have hrefused : ∀ code, p.badField s.ownAddress = some code → refused code := fun code hbad =>
    exec_answered rfl rfl hd (s.counted.doWritePolicy_badValue hh' hbad)
  have heq := Policy.badField_eq hfits s.ownAddress
  refine ⟨fun h₀ => hrefused _ ?_, fun h₀ h₁ => hrefused _ ?_, fun h₀ h₁ h₂ => hrefused _ ?_,
    fun h₀ h₁ h₂ h₃ => hrefused _ ?_, fun h₀ h₁ h₂ h₃ h₄ => hrefused _ ?_, fun h₀ h₁ h₂ h₃ h₄ => ?_⟩
  · rw [heq, if_pos h₀]
  · rw [heq, if_neg h₀, if_pos h₁]
  · rw [heq, if_neg h₀, if_neg h₁, if_pos h₂]
  · rw [heq, if_neg h₀, if_neg h₁, if_neg h₂, if_pos h₃]
  · rw [heq, if_neg h₀, if_neg h₁, if_neg h₂, if_neg h₃, if_pos h₄]
  · rw [if_neg h₀, if_neg h₁, if_neg h₂, if_neg h₃, if_neg h₄] at heq
    exact exec_answered rfl rfl hd (s.counted.doWritePolicy_ok hh' heq)

/-! COMMIT. -/

theorem allChannels_getElem (ch : ChannelId) : allChannels[ch.val]? = some ch := by
  revert ch; decide

/-- The search over the channels finds the lowest one (R7, R13, R45). -/
theorem find?_allChannels {p : ChannelId → Bool} {ch : ChannelId} (h : p ch = true)
    (hlow : ∀ c : ChannelId, c < ch → p c = false) : allChannels.find? p = some ch := by
  obtain ⟨hlt, hch⟩ := List.getElem?_eq_some_iff.1 (allChannels_getElem ch)
  refine List.find?_eq_some_iff_getElem.2 ⟨h, ch.val, hlt, hch, fun j hj => ?_⟩
  have hj' : j < 16 := hj.trans ch.isLt
  obtain ⟨_, hc⟩ := List.getElem?_eq_some_iff.1 (allChannels_getElem ⟨j, hj'⟩)
  rw [hc, hlow ⟨j, hj'⟩ hj]
  rfl

/-- A channel's map entry names an EMPTY slot (R13). -/
def Bank.mapsEmpty (b : Bank) (ch : ChannelId) : Prop :=
  ∃ slot : SlotIndex, b.map[ch.val] = some slot ∧ b.slots[slot.val] = none

theorem Bank.inconsistentChannel_some {b : Bank} {ch : ChannelId} (h : b.mapsEmpty ch)
    (hlow : ∀ c : ChannelId, c < ch → ¬b.mapsEmpty c) : b.inconsistentChannel = some ch := by
  obtain ⟨slot, hmap, hslot⟩ := h
  refine find?_allChannels (by simp [hmap, hslot]) fun c hc => ?_
  cases hm : b.map[c.val] with
  | none => rfl
  | some slot => simpa [← Option.ne_none_iff_isSome] using fun hs => hlow c hc ⟨slot, hm, hs⟩

theorem Bank.inconsistentChannel_none {b : Bank} (h : ∀ ch : ChannelId, ¬b.mapsEmpty ch) :
    b.inconsistentChannel = none := by
  refine List.find?_eq_none.2 fun c _ => ?_
  cases hm : b.map[c.val] with
  | none => simp
  | some slot => simpa using fun hs => h c ⟨slot, hm, hs⟩

/-- COMMIT of the holder, by the consistency of SHADOW (R13). -/
theorem State.doCommit_inconsistent {source : Byte} {session : Session} (h : s.Holds source session)
    {ch : ChannelId} (hi : session.shadow.inconsistentChannel = some ch) :
    s.doCommit source = s.answer .inconsistent [byteOf ch.val] := by
  rw [State.doCommit, s.underSession_holder source _ session h, hi]

theorem State.doCommit_ok {source : Byte} {session : Session} (h : s.Holds source session)
    (hi : session.shadow.inconsistentChannel = none) : s.doCommit source =
      (s.changeOver session.shadow).answer .ok (halfBytes (nextGeneration s.generation)) := by
  rw [State.doCommit, s.underSession_holder source _ session h, hi]
  rfl

theorem ReportQueue.settleLoss_settled {q : ReportQueue} (h : q.lossCount = 0 ∨ queueCapacity ≤ q.total) :
    q.settleLoss = q := by
  rw [ReportQueue.settleLoss, if_neg]
  omega

/-- A changed sink where no loss waits for a place (R133, R134). -/
theorem ReportQueue.changeSink_eq {q : ReportQueue} (h : q.lossCount = 0 ∨ queueCapacity ≤ q.total) (sink : Byte)
    (ms : Nat) : q.changeSink sink ms =
      { q with
        cursor := 0
        retryCount := 0
        sender := if sink = 0x00 then .noSink else .ready
        retransmitTimer := if sink = 0x00 ∨ q.window = [] then none else some ms } := by
  unfold ReportQueue.changeSink
  by_cases hsink : sink = 0x00#8
  · rw [if_pos hsink, ReportQueue.settleLoss_settled]
    · simp [hsink]
    · exact h
  · rw [if_neg hsink, ReportQueue.settleLoss_settled]
    · simp [hsink]
    · exact h

theorem nextGeneration_eq (g : Half) : nextGeneration g = if g.toNat = 65535 then 1 else g + 1 := by
  unfold nextGeneration
  congr 1
  simp [BitVec.toNat_eq]

/-- Settles O38: the lowest inconsistent channel is named, and a consistent SHADOW is changed over. -/
theorem commitChangesOverTheTables : Obligations.CommitChangesOverTheTables := by
  intro s source tag session hd hh
  have hh' : s.counted.Holds source session := hh
  refine ⟨fun ch hempty hlow => ?_, fun hconsistent hsettled => ?_⟩
  · have hnamed : session.shadow.inconsistentChannel = some ch :=
      Bank.inconsistentChannel_some hempty fun c hc ⟨slot, hmap, hslot⟩ => hlow c hc slot hmap hslot
    exact exec_answered rfl rfl hd (s.counted.doCommit_inconsistent hh' hnamed)
  · intro generation sink
    have hnone : session.shadow.inconsistentChannel = none :=
      Bank.inconsistentChannel_none fun c ⟨slot, hmap, hslot⟩ => hconsistent c slot hmap hslot
    have hgeneration : generation = nextGeneration s.generation := (nextGeneration_eq s.generation).symm
    have hsettled' : s.report.lossCount = 0 ∨ queueCapacity ≤ s.report.total :=
      hsettled.imp_right fun h => h.ge
    have hp := s.counted.doCommit_ok hh' hnone
    rw [hgeneration, ← ReportQueue.changeSink_eq hsettled' sink]
    exact exec_answered rfl rfl hd hp

/-! Reset. -/

/-- Settles O5, block by block. -/
theorem coldResetLeavesTheResetValues : Obligations.ColdResetLeavesTheResetValues := by
  intro straps s
  have haddress : ∀ straps : BitVec 3, (strapAddress straps).toNat = 0x70 + straps.toNat := by decide
  have hfault : State.reset.faultLow = false := by decide
  refine ⟨s.coldReset straps, rfl, haddress straps, ?_, ?_, rfl, rfl, rfl, s.coldReset_channel straps, rfl, rfl, rfl,
    rfl, rfl, rfl, rfl, rfl, rfl, rfl, rfl, rfl, rfl, rfl, hfault, rfl⟩
  · simp [State.coldReset, State.reset, Bank.reset]
  · simp [State.coldReset, State.reset, Bank.reset]

/-- Settles O49: the reset state is closed, and each of its blocks is evaluated. -/
theorem resetIsSound : Obligations.ResetIsSound := by
  refine ⟨?channels, ?balanced, ?stream, ?report, ?tables, ?generation, ?queues, ?ports, ?arbitrated, ?address, ?frames⟩
  all_goals decide

end Sys2Proof.Machine

/-! SUPPORT. The departures as the rows of the table and as the arbiters' act, and the statements on them (R33, R34,
R96, R161, R168 to R171). -/

namespace Sys2Proof.Machine

variable (s : State)

/-! The row of a selection. -/

/-- The row of the departure that stands at the D-port (R169). -/
theorem State.dRow_iff (row : Instr) : s.dRow = some row ↔
    s.dStanding = some .injection ∧ row = .injectedDeparture ∨
    s.dStanding = some .queueHead ∧ ∃ f ∈ s.dfq.head?,
      row = if s.judges f = true then .judgedDeparture else .dPortDeparture := by
  unfold State.dRow
  cases s.dStanding with
  | none => simp
  | some source =>
    cases source with
    | injection => simp [eq_comm (a := Instr.injectedDeparture)]
    | queueHead => cases s.dfq <;> simp [eq_comm (b := row)]

/-- The row of the departure that stands at the C-port (R171). -/
theorem State.cRow_iff (row : Instr) : s.cRow = some row ↔
    s.cStanding = some .response ∧ row = .responseDeparture ∨ s.cStanding = some .report ∧ row = .reportDeparture ∨
    s.cStanding = some .forward ∧ row = .ufqDeparture := by
  unfold State.cRow
  cases s.cStanding with
  | none => simp
  | some source => cases source <;> simp [eq_comm (b := row)]

/-- The row of the DFQ head that stands at the D-port, judged or not (R25, R169). -/
theorem State.dRow_judged {f : Frame} {rest : List Frame} (hs : s.dStanding = some .queueHead)
    (hf : s.dfq = f :: rest) (hj : s.judges f = true) : s.dRow = some .judgedDeparture :=
  (s.dRow_iff _).2 (.inr ⟨hs, f, congrArg List.head? hf, (if_pos hj).symm⟩)

theorem State.dRow_unjudged {f : Frame} {rest : List Frame} (hs : s.dStanding = some .queueHead)
    (hf : s.dfq = f :: rest) (hj : s.judges f = false) : s.dRow = some .dPortDeparture :=
  (s.dRow_iff _).2 (.inr ⟨hs, f, congrArg List.head? hf, (if_neg (by simp [hj])).symm⟩)

theorem State.dRow_mem {row : Instr} (h : s.dRow = some row) : row ∈ departureRows := by
  rcases (s.dRow_iff row).1 h with ⟨_, rfl⟩ | ⟨_, f, _, rfl⟩
  · decide
  · split <;> decide

theorem State.cRow_mem {row : Instr} (h : s.cRow = some row) : row ∈ departureRows := by
  rcases (s.cRow_iff row).1 h with ⟨_, rfl⟩ | ⟨_, rfl⟩ | ⟨_, rfl⟩ <;> decide

/-- A selection stands where its departure has a row. -/
theorem State.dRow_standing {row : Instr} (h : s.dRow = some row) : s.dStanding ≠ none := by
  rcases (s.dRow_iff row).1 h with ⟨hs, _⟩ | ⟨hs, _⟩ <;> simp [hs]

theorem State.cRow_standing {row : Instr} (h : s.cRow = some row) : s.cStanding ≠ none := by
  rcases (s.cRow_iff row).1 h with ⟨hs, _⟩ | ⟨hs, _⟩ | ⟨hs, _⟩ <;> simp [hs]

/-- A departure at the D-port is left to its row where the queue of commands holds that row behind nothing but
departures and what meets it. -/
theorem State.dHeld_iff : s.dHeld = true ↔ ∃ row claims rest, s.dRow = some row ∧ s.pending = claims ++ row :: rest ∧
    ∀ c ∈ claims, c ∈ departureRows ∨ s.meets row c = true := by
  unfold State.dHeld
  cases hr : s.dRow with
  | none => simp
  | some row => simp [s.rowWaits_iff row _ (s.dRow_mem hr)]

/-- The same at the C-port, where nothing meets a departure. -/
theorem State.cHeld_iff : s.cHeld = true ↔ ∃ row claims rest, s.cRow = some row ∧ s.pending = claims ++ row :: rest ∧
    ∀ c ∈ claims, c ∈ departureRows := by
  unfold State.cHeld
  cases hr : s.cRow with
  | none => simp
  | some row => simp [s.rowWaits_iff row _ (s.cRow_mem hr)]

/-! A departure's row is the departure. -/

/-- The selected head of the DFQ that is not judged leaves as it stands (R169). -/
theorem State.leaveD_unjudged {f : Frame} {rest : List Frame} (h : s.dStanding = some .queueHead)
    (hf : s.dfq = f :: rest) (hj : s.judges f = false) : s.leaveD = State.sendD { s with dfq := rest } f := by
  simp [State.leaveD, h, hf, State.departD, hj]

/-- The row of a departure at the D-port is that departure and the arbiters' acts behind it (R168, R169). -/
theorem exec_dRow {row : Instr} (h : s.dRow = some row) : exec row s = .next s.leaveD.arbitrate := by
  rcases (s.dRow_iff row).1 h with ⟨hs, rfl⟩ | ⟨hs, f, hf, rfl⟩
  · change Host.Outcome.next (if s.dStanding = some .injection then s.departInjection.arbitrate else s) = _
    simp [State.leaveD, hs]
  · obtain ⟨rest, hdfq⟩ := List.head?_eq_some_iff.1 hf
    by_cases hj : s.judges f = true
    · rw [if_pos hj]
      change execJudgedDeparture s = _
      simp [execJudgedDeparture, State.leaveD, hs, hdfq, hj]
    · rw [if_neg hj, s.leaveD_unjudged hs hdfq (by simpa using hj)]
      change execDPortDeparture s = _
      simp [execDPortDeparture, hs, hdfq, hj]

/-- The row of a departure at the C-port is that departure and the arbiters' acts behind it (R170, R171). -/
theorem exec_cRow {row : Instr} (h : s.cRow = some row) : exec row s = .next s.leaveC.arbitrate := by
  rcases (s.cRow_iff row).1 h with ⟨hs, rfl⟩ | ⟨hs, rfl⟩ | ⟨hs, rfl⟩
  · change execResponseDeparture s = _
    simp [execResponseDeparture, State.leaveC, hs]
  · change execReportDeparture s = _
    simp [execReportDeparture, State.leaveC, hs]
  · change execUfqDeparture s = _
    simp [execUfqDeparture, State.leaveC, hs]

/-- The row of a departure is that departure with the arbiters' acts behind it, or, where the departure does not stand,
nothing (log entry 4). -/
theorem exec_departure {row : Instr} (h : row ∈ departureRows) :
    s.dRow = some row ∧ exec row s = .next s.leaveD.arbitrate ∨
    s.cRow = some row ∧ exec row s = .next s.leaveC.arbitrate ∨ exec row s = .next s := by
  by_cases hd : s.dRow = some row
  · exact .inl ⟨hd, exec_dRow s hd⟩
  by_cases hc : s.cRow = some row
  · exact .inr (.inl ⟨hc, exec_cRow s hc⟩)
  refine .inr (.inr ?_)
  have hd' := fun hrow => hd ((s.dRow_iff row).2 hrow)
  have hc' := fun hrow => hc ((s.cRow_iff row).2 hrow)
  simp only [departureRows, List.mem_cons, List.not_mem_nil, or_false] at h
  rcases h with rfl | rfl | rfl | rfl | rfl | rfl
  · change execJudgedDeparture s = _
    unfold execJudgedDeparture
    split
    · rename_i f rest hs hf
      rw [if_neg fun hj => hd' (.inr ⟨hs, f, by simp [hf], by simp [hj]⟩)]
    · rfl
  · change execDPortDeparture s = _
    unfold execDPortDeparture
    split
    · rename_i f rest hs hf
      rw [if_pos (by_contra fun hj => hd' (.inr ⟨hs, f, by simp [hf], by simp [hj]⟩))]
    · rfl
  · exact congrArg _ (if_neg fun hs => hd' (.inl ⟨hs, rfl⟩))
  · exact congrArg _ (if_neg fun hs => hc' (.inl ⟨hs, rfl⟩))
  · exact congrArg _ (if_neg fun hs => hc' (.inr (.inl ⟨hs, rfl⟩)))
  · exact congrArg _ (if_neg fun hs => hc' (.inr (.inr ⟨hs, rfl⟩)))

/-! The arbiters' act. -/

theorem State.concludeD_leaves (h : s.dHeld = false) : s.concludeD = s.leaveD := by simp [State.concludeD, h]

theorem State.concludeC_leaves (h : s.cHeld = false) : s.concludeC = s.leaveC := by simp [State.concludeC, h]

/-- Both ports have a departure that is not left to its row. -/
theorem State.bothLeave_iff : s.bothLeave = true ↔
    (s.dStanding ≠ none ∧ s.dHeld = false) ∧ s.cStanding ≠ none ∧ s.cHeld = false := by
  simp [State.bothLeave, Option.isSome_iff_ne_none, and_assoc]

/-- Where a port has no departure that its row leaves to the arbiters, no order is taken. -/
theorem State.arbitrate_alone
    (h : (s.dStanding = none ∨ s.dHeld = true) ∨ s.cStanding = none ∨ s.cHeld = true) :
    s.arbitrate = s.concludeD.concludeC.select := by
  have hb : ¬s.bothLeave = true := by
    rw [State.bothLeave_iff]
    rcases h with (h | h) | h | h <;> simp [h]
  rw [State.arbitrate, if_neg hb]

/-- Where nothing leaves the D-port, only the C-port's departure is taken. -/
theorem State.arbitrate_dStays (h : s.dStanding = none ∨ s.dHeld = true) : s.arbitrate = s.concludeC.select := by
  rw [s.arbitrate_alone (.inl h), s.concludeD_stays h]

/-- A departure on the C-port leaves the port transmitting (R172). -/
theorem State.leaveC_busy (h : s.cStanding ≠ none) : s.leaveC.cPort.ready = false := by
  cases hs : s.cStanding with
  | none => exact absurd hs h
  | some source =>
    obtain ⟨_, _, hw, _⟩ := s.cStanding_spec hs
    unfold State.leaveC
    rw [hs]
    cases source with
    | response =>
      obtain ⟨f, rest, hr⟩ := List.exists_cons_of_ne_nil (l := s.responses) (by simpa [State.cWaits] using hw)
      simp [State.departResponse, hr, Port.ready]
    | report =>
      obtain ⟨o, ho⟩ := Option.isSome_iff_exists.1 (show s.report.offer.isSome = true from hw)
      simp [State.departReport, ho, Port.ready]
    | forward =>
      obtain ⟨f, rest, hu⟩ := List.exists_cons_of_ne_nil (l := s.ufq) (by simpa [State.cWaits] using hw)
      simp [State.departForward, hu, Port.ready]

/-- Behind the D-port's departure the arbiters do what is left at the C-port. -/
theorem State.leaveD_arbitrate : s.leaveD.arbitrate = s.leaveD.concludeC.select :=
  s.leaveD.arbitrate_dStays (.inl s.leaveD_dStanding)

/-- Behind the C-port's departure the arbiters do what is left at the D-port, and that brings nothing more about at the
C-port, which transmits. -/
theorem State.leaveC_arbitrate (h : s.cStanding ≠ none) : s.leaveC.arbitrate = s.leaveC.concludeD.select := by
  have hidle : s.leaveC.concludeD.cStanding = none := by
    unfold State.concludeD
    split
    · exact s.leaveC_cStanding
    · exact State.leaveD_cBusy _ (s.leaveC_busy h)
  rw [State.arbitrate_alone _ (.inr (.inl s.leaveC_cStanding)), State.concludeC_stays _ (.inl hidle)]

/-- Settles O10: each row of a departure is that departure with the arbiters' acts behind it, and so is the arbiters'
act, port by port. -/
theorem selectionIsTheDeparture : Obligations.SelectionIsTheDeparture := by
  intro s departures asks meets dStays cStays counted
  have hmeets : ∀ row c, s.meets row c = true ↔ meets row c := fun row c => by
    simp only [State.meets_iff, State.requestIn_iff]
    rfl
  refine ⟨s.dRow_iff, s.cRow_iff, ?_, s.cHeld_iff, fun hd hc => ?_, fun row hr hh hc => ?_, fun row hr hh hd => ?_,
    fun dRow cRow hdr hdh hcr hch => ?_⟩
  · simp only [← hmeets]
    exact s.dHeld_iff
  · rw [s.arbitrate_dStays hd, s.concludeC_stays hc]
    rfl
  · rw [exec_dRow s hr, s.leaveD_arbitrate, s.arbitrate_alone (.inr hc), s.concludeD_leaves hh]
  · have hd' : s.leaveC.dStanding = none ∨ s.leaveC.dHeld = true := by
      rw [s.leaveC_dSide.1, s.leaveC_dSide.2]
      exact hd
    rw [exec_cRow s hr, s.leaveC_arbitrate (s.cRow_standing hr), s.leaveC.concludeD_stays hd', s.arbitrate_dStays hd,
      s.concludeC_leaves hh]
  · have hboth : s.bothLeave = true :=
      s.bothLeave_iff.2 ⟨⟨s.dRow_standing hdr, hdh⟩, s.cRow_standing hcr, hch⟩
    have hact : s.arbitrate = State.select
        (if Config.freeOrder s.freeCount % 2 = 0 then counted.concludeD.concludeC
        else counted.concludeC.concludeD) := by
      rw [State.arbitrate, if_pos hboth]
    rw [hact, exec_dRow counted hdr, exec_cRow counted hcr, counted.leaveD_arbitrate,
      counted.leaveC_arbitrate (counted.cRow_standing hcr), counted.concludeD_leaves hdh, counted.concludeC_leaves hch]
    split
    · exact .inl rfl
    · exact .inr rfl

/-- Settles O25: each is the departure of the source that stands, with the arbiters' acts behind it. -/
theorem framesDepartAsTheyStand : Obligations.FramesDepartAsTheyStand := by
  refine ⟨fun s f rest hs hf hk => ?_, fun s f rest hs hf => ?_, fun s f rest hs hf => ?_⟩
  · have hj : s.judges f = false := by
      simp only [State.judges, Bool.and_eq_false_iff, beq_eq_false_iff_ne]
      exact hk
    rw [exec_dRow s (s.dRow_unjudged hs hf hj), s.leaveD_unjudged hs hf hj]
    rfl
  · have hrow : s.cRow = some .responseDeparture := (s.cRow_iff _).2 (.inl ⟨hs, rfl⟩)
    rw [exec_cRow s hrow, State.leaveC, hs]
    simp only [State.departResponse, hf]
    rfl
  · have hrow : s.cRow = some .ufqDeparture := (s.cRow_iff _).2 (.inr (.inr ⟨hs, rfl⟩))
    rw [exec_cRow s hrow, State.leaveC, hs]
    simp only [State.departForward, hf]
    rfl

/-! The part by itself. -/

/-- What the part does by itself: a tick, or an expiry that is due (log entry 5). -/
theorem State.idle_cases : s.idle = .next s.tick ∨ ∃ i ∈ s.due, ∃ n, s.idle = exec i { s with freeCount := n } := by
  unfold State.idle
  split
  · exact .inl rfl
  · rename_i c hdue
    exact .inr ⟨c, by simp [hdue], s.freeCount, rfl⟩
  · rename_i c d rest hdue
    refine .inr ⟨_, ?_, _, rfl⟩
    rw [hdue, List.getD_eq_getElem _ _ (Nat.mod_lt _ (by simp))]
    exact List.getElem_mem _

/-- What is due is an expiry (R102, R126, R148). -/
theorem State.due_mem {i : Instr} (h : i ∈ s.due) : i = .silenceExpiry ∨ i = .retransmitExpiry ∨ i = .leaseExpiry := by
  simp only [State.due, List.mem_append, List.mem_ite_nil_right, List.mem_singleton] at h
  rcases h with (⟨_, h⟩ | ⟨_, h⟩) | ⟨_, h⟩ <;> simp [h]

/-! The retransmit expiry and UNLOCK_CHANNEL. -/

/-- FAULT_N is low exactly while a channel is not OPEN or the sender is STALLED (R38). -/
theorem State.faultLow_iff : s.faultLow = true ↔
    (∃ ch : ChannelId, (s.channel ch).disposition ≠ .open_) ∨ s.report.sender = .stalled := by
  have hany : (s.channels.toList.any fun c => c.disposition != .open_) = true ↔
      ∃ ch : ChannelId, (s.channel ch).disposition ≠ .open_ := by
    simp only [List.any_eq_true, Vector.mem_toList_iff, Vector.mem_iff_getElem, bne_iff_ne, State.channel]
    constructor
    · rintro ⟨_, ⟨k, hk, rfl⟩, hne⟩
      exact ⟨⟨k, hk⟩, hne⟩
    · rintro ⟨ch, hne⟩
      exact ⟨_, ⟨ch.val, ch.isLt, rfl⟩, hne⟩
  rw [State.faultLow, Bool.or_eq_true, hany, beq_iff_eq]

/-- The retransmit expiry below five retries, where no loss waits for a place (R127). -/
theorem ReportQueue.expire_goesBack {q : ReportQueue} (h : q.lossCount = 0 ∨ queueCapacity ≤ q.total)
    (hr : q.retryCount < 5) (ms : Nat) :
    q.expire ms = { q with retryCount := q.retryCount + 1, cursor := 0, retransmitTimer := some ms } := by
  rw [ReportQueue.expire, if_pos hr]
  exact ReportQueue.settleLoss_settled h

/-- The retransmit expiry at the fifth retry, where no loss waits for a place (R128). -/
theorem ReportQueue.expire_stalls {q : ReportQueue} (h : q.lossCount = 0 ∨ queueCapacity ≤ q.total)
    (hr : ¬q.retryCount < 5) (ms : Nat) :
    q.expire ms = { q with sender := .stalled, retransmitTimer := none } := by
  rw [ReportQueue.expire, if_neg hr]
  exact ReportQueue.settleLoss_settled h

/-- Settles O28, by whether the timer's ticks have passed and by the retries made. -/
theorem retransmitExpiryGoesBackOrStalls : Obligations.RetransmitExpiryGoesBackOrStalls := by
  intro s
  have hexec : exec .retransmitExpiry s = .next (if s.retransmitDue then s.expireRetransmit.arbitrate else s) := rfl
  refine ⟨fun hrunning => ?_, fun hpassed hloss => ⟨fun hretry => ?_, fun hretry => ?_⟩⟩
  · rw [hexec, if_neg (by simpa [State.retransmitDue] using hrunning)]
  all_goals
    have hsettled : s.report.lossCount = 0 ∨ queueCapacity ≤ s.report.total := hloss.imp_right fun h => h.ge
    have hdue : s.retransmitDue = true := by simpa [State.retransmitDue] using hpassed
    rw [hexec, if_pos hdue, State.expireRetransmit]
  · rw [ReportQueue.expire_goesBack hsettled hretry]
  · rw [ReportQueue.expire_stalls hsettled (by omega)]
    exact ⟨_, rfl, rfl, (State.faultLow_iff _).2 (.inr rfl)⟩

/-- UNLOCK_CHANNEL of the holder at a channel in range (R35, R36). -/
theorem State.doUnlockChannel_holder {source channel : Byte} {session : Session} {ch : ChannelId}
    (h : s.Holds source session) (hch : channel.toNat = ch.val) :
    s.doUnlockChannel source channel =
      (s.unlock ch).answer .ok [channel, ((s.unlock ch).channel ch).disposition.code] := by
  rw [State.doUnlockChannel, s.underSession_holder source _ session h, channelOf_eq hch]
  rfl

/-- Settles O39, by the channel's number and its disposition. -/
theorem unlockLeavesLocked : Obligations.UnlockLeavesLocked := by
  intro s source tag channel session hd hh
  have hh' : s.counted.Holds source session := hh
  refine ⟨fun hrange => ?_, fun ch hch hne => ?_, fun ch hch hlocked => ?_⟩
  · have hp : s.counted.perform source (.unlockChannel channel) = s.counted.answer .badIndex := by
      rw [State.perform, State.doUnlockChannel, s.counted.underSession_holder source _ session hh',
        channelOf_none hrange]
    exact exec_answered rfl rfl hd hp
  · have hu : s.counted.unlock ch = s.counted := if_neg hne
    have hp := s.counted.doUnlockChannel_holder hh' hch
    rw [hu] at hp
    exact exec_answered rfl rfl hd hp
  · have hu : s.counted.unlock ch = (s.counted.setChannel ch (s.channel ch).unlocked).hand [.unlocked ch] :=
      if_pos hlocked
    have hp := s.counted.doUnlockChannel_holder hh' hch
    rw [hu, State.channel_hand, State.channel_setChannel_same] at hp
    exact exec_answered (u := (s.setChannel ch (s.channel ch).unlocked).hand [.unlocked ch]) rfl rfl hd hp

end Sys2Proof.Machine

/-! SUPPORT. Every frame that waits or is in transmission is intact (chapter 9, R32, R164, R180). -/

namespace Sys2Proof.Machine

/-! Receipt. -/

/-- A frame that passes the checks at receipt has the check sequence of its header and payload (R164). -/
theorem checkFrame_intact {bytes : List Byte} {f : Frame} (h : checkFrame bytes = .valid f) : frameIntact f := by
  unfold checkFrame at h
  split at h
  · cases h
  · dsimp only at h
    split at h
    · rename_i hi lo kind destination source sequence len payload _ hbody
      have hlength := congrArg List.length hbody
      simp only [List.length_take, List.length_cons] at hlength
      split at h
      · cases h
      · rename_i hcrc
        split at h
        · cases h
        · rename_i hlen
          simp only [Bool.or_eq_true, decide_eq_true_eq, bne_iff_ne, not_or, not_not, not_lt] at hlen hcrc
          obtain ⟨_, hlen⟩ := hlen
          have hfield : BitVec.ofNat 8 payload.length = len := by
            rw [show payload.length = len.toNat by omega, BitVec.ofNat_toNat, BitVec.setWidth_eq]
          cases h
          simp only [frameIntact, Frame.body, hfield]
          rw [← hcrc, hbody]
    · cases h

/-! The frames of a state. -/

section
variable {s t : State}

/-- The frames that wait or are in transmission are these fields alone. -/
theorem State.FramesIntact.of_eq (hs : s.FramesIntact)
    (h : (t.dfq, t.ufq, t.responses, t.cache, t.dPort.sending, t.cPort.sending) =
      (s.dfq, s.ufq, s.responses, s.cache, s.dPort.sending, s.cPort.sending)) : t.FramesIntact := by
  simp only [Prod.mk.injEq] at h
  obtain ⟨hdfq, hufq, hresponses, hcache, hd, hc⟩ := h
  simp only [State.FramesIntact, hdfq, hufq, hresponses, hcache, hd, hc]
  exact hs

/-- Frames that leave their queue take nothing from the others. -/
theorem State.FramesIntact.suffix (hs : s.FramesIntact) {dfq ufq responses : List Frame} (hdfq : dfq <:+ s.dfq)
    (hufq : ufq <:+ s.ufq) (hresponses : responses <:+ s.responses) :
    State.FramesIntact { s with dfq, ufq, responses } := by
  obtain ⟨hd, hu, hr, hrest⟩ := hs
  exact ⟨fun f hf => hd f (hdfq.subset hf), fun f hf => hu f (hufq.subset hf),
    fun f hf => hr f (hresponses.subset hf), hrest⟩

theorem State.FramesIntact.sendD (hs : s.FramesIntact) {f : Frame} (hf : frameIntact f) :
    (s.sendD f).FramesIntact := by
  obtain ⟨hdfq, hufq, hresponses, hcache, _, hc⟩ := hs
  exact ⟨hdfq, hufq, hresponses, hcache, by simpa using hf, hc⟩

theorem State.FramesIntact.sendC (hs : s.FramesIntact) {f : Frame} (hf : frameIntact f) :
    (s.sendC f).FramesIntact := by
  obtain ⟨hdfq, hufq, hresponses, hcache, hd, _⟩ := hs
  exact ⟨hdfq, hufq, hresponses, hcache, hd, by simpa using hf⟩

theorem State.FramesIntact.offerDfq (hs : s.FramesIntact) {f : Frame} (hf : frameIntact f) :
    (s.offerDfq f).FramesIntact := by
  unfold State.offerDfq
  split
  · obtain ⟨hdfq, hrest⟩ := hs
    exact ⟨by simpa [or_imp, forall_and] using ⟨hdfq, hf⟩, hrest⟩
  · exact hs.of_eq rfl

theorem State.FramesIntact.offerUfq (hs : s.FramesIntact) {f : Frame} (hf : frameIntact f) :
    (s.offerUfq f).FramesIntact := by
  unfold State.offerUfq
  split
  · obtain ⟨hdfq, hufq, hrest⟩ := hs
    exact ⟨hdfq, by simpa [or_imp, forall_and] using ⟨hufq, hf⟩, hrest⟩
  · exact hs.of_eq rfl

/-- A response queued and an entry cached (R140, R143). -/
theorem State.FramesIntact.answer (hs : s.FramesIntact) {e : CacheEntry} (he : frameIntact e.response)
    {u : State} (hu : (u.dfq, u.ufq, u.dPort.sending, u.cPort.sending) =
      (s.dfq, s.ufq, s.dPort.sending, s.cPort.sending))
    (hresponses : u.responses = s.responses ++ [e.response]) (hcache : u.cache = cacheInsert s.cache e) :
    u.FramesIntact := by
  simp only [Prod.mk.injEq] at hu
  obtain ⟨hdfq', hufq', hd', hc'⟩ := hu
  obtain ⟨hdfq, hufq, hr, hc, hd, hcp⟩ := hs
  have hcached : ∀ x ∈ cacheInsert s.cache e, frameIntact x.response := fun x hx => by
    rcases List.mem_cons.1 (List.mem_of_mem_take hx) with rfl | hx
    · exact he
    · exact hc x (List.mem_filter.1 hx).1
  simp only [State.FramesIntact, hdfq', hufq', hd', hc', hresponses, hcache]
  exact ⟨hdfq, hufq, by simpa [or_imp, forall_and] using ⟨hr, he⟩, hcached, hd, hcp⟩

/-! Departures. -/

/-- What a departure on the D-port can put into transmission is intact, if the queue and the transmitter are (R32). -/
theorem State.DSends.intact {l : List Frame} {sending : Option Frame} (h : s.DSends l sending)
    (hl : ∀ f ∈ l, frameIntact f) (hd : ∀ f ∈ s.dPort.sending, frameIntact f) :
    ∀ f ∈ sending, frameIntact f := by
  cases h with
  | nothing => exact hd
  | injected _ => rintro _ ⟨⟩; exact Frame.build_intact ..
  | plain f hf _ => rintro _ ⟨⟩; exact hl f hf
  | judged f entries t hf _ _ _ => rintro _ ⟨⟩; exact judgedFrame_intact f entries _ (hl f hf)

theorem State.FramesIntact.leaveD (hs : s.FramesIntact) : s.leaveD.FramesIntact := by
  obtain ⟨sending, dfq, _, _, _, _, _, _, heq, hsuffix, hsends⟩ := s.leaveD_frame
  obtain ⟨hdfq, hufq, hresponses, hcache, hd, hc⟩ := hs
  rw [heq]
  exact ⟨fun f hf => hdfq f (hsuffix.subset hf), hufq, hresponses, hcache, hsends.intact hdfq hd, hc⟩

theorem State.FramesIntact.leaveC (hs : s.FramesIntact) : s.leaveC.FramesIntact := by
  unfold State.leaveC
  split
  · unfold State.departResponse
    split
    · rename_i f rest hr
      obtain ⟨_, _, hresponses, _⟩ := id hs
      have hf : frameIntact f := hresponses f (by simp [hr])
      exact (hs.suffix List.suffix_rfl List.suffix_rfl (hr ▸ List.suffix_cons f rest)).sendC hf
    · exact hs
  · unfold State.departReport
    split
    · exact State.FramesIntact.sendC (hs.of_eq rfl) (Frame.build_intact ..)
    · exact hs
  · unfold State.departForward
    split
    · rename_i f rest hu
      obtain ⟨_, hufq, _⟩ := id hs
      have hf : frameIntact f := hufq f (by simp [hu])
      have hrest := hs.suffix List.suffix_rfl (hu ▸ List.suffix_cons f rest) List.suffix_rfl
      exact State.FramesIntact.sendC (hrest.of_eq rfl) hf
    · exact hs
  · exact hs

theorem State.FramesIntact.arbitrate (hs : s.FramesIntact) : s.arbitrate.FramesIntact :=
  s.arbitrate_induct State.FramesIntact hs (fun _ h => h.leaveD) (fun _ h => h.leaveC) (fun _ _ h => h.of_eq rfl)
    (fun _ h => h.of_eq rfl)

/-! Blocks that hold no frames. -/

theorem State.FramesIntact.observe (hs : s.FramesIntact) (payload : List Byte) : (s.observe payload).FramesIntact := by
  obtain ⟨_, _, _, _, _, _, _, heq⟩ := s.observe_frame payload
  rw [heq]
  exact hs.of_eq rfl

theorem State.FramesIntact.fallSilent (hs : s.FramesIntact) : s.fallSilent.FramesIntact := by
  obtain ⟨_, _, heq⟩ := s.fallSilent_frame
  rw [heq]
  exact hs.of_eq rfl

theorem State.FramesIntact.expireRetransmit (hs : s.FramesIntact) : s.expireRetransmit.FramesIntact := hs.of_eq rfl

theorem State.FramesIntact.expireLease (hs : s.FramesIntact) : s.expireLease.FramesIntact := by
  unfold State.expireLease
  split
  · exact hs.of_eq rfl
  · exact hs

theorem State.FramesIntact.loseD (hs : s.FramesIntact) : s.loseD.FramesIntact := by
  have hlost : State.FramesIntact { s with dPort := s.dPort.lose s.dfq.length, dfq := [] } := by
    obtain ⟨_, hufq, hresponses, hcache, _, hc⟩ := hs
    exact ⟨nofun, hufq, hresponses, hcache, nofun, hc⟩
  unfold State.loseD
  dsimp only
  split
  · exact hlost.fallSilent
  · exact hlost

theorem State.FramesIntact.loseC (hs : s.FramesIntact) : s.loseC.FramesIntact := by
  obtain ⟨hdfq, _, _, hcache, hd, _⟩ := hs
  exact ⟨hdfq, nofun, nofun, hcache, hd, nofun⟩

theorem State.FramesIntact.completeC (hs : s.FramesIntact) :
    State.FramesIntact { s with cPort := s.cPort.complete } := by
  obtain ⟨hdfq, hufq, hresponses, hcache, hd, _⟩ := hs
  exact ⟨hdfq, hufq, hresponses, hcache, hd, by simp [Port.complete]⟩

theorem State.FramesIntact.completeD (hs : s.FramesIntact) :
    State.FramesIntact { s with dPort := s.dPort.complete } := by
  obtain ⟨hdfq, hufq, hresponses, hcache, _, hc⟩ := hs
  exact ⟨hdfq, hufq, hresponses, hcache, by simp [Port.complete], hc⟩

theorem State.coldReset_framesIntact (straps : BitVec 3) : (s.coldReset straps).FramesIntact :=
  ⟨nofun, nofun, nofun, nofun, nofun, nofun⟩

/-! Management requests. -/

/-- A request under the authority check keeps the frames intact as its act does (R147). -/
theorem State.FramesIntact.underSession (hs : s.FramesIntact) (source : Byte) (act : Session → Reply)
    (h : ∀ held, (act held).state.FramesIntact) : (s.underSession source act).state.FramesIntact := by
  rcases s.underSession_cases source act with ⟨_, heq⟩ | ⟨_, _, _, heq⟩ | ⟨held, _, _, heq⟩ <;> rw [heq]
  · exact hs
  · exact hs
  · exact h held

theorem State.FramesIntact.unlock (hs : s.FramesIntact) (ch : ChannelId) : (s.unlock ch).FramesIntact := by
  unfold State.unlock
  split
  · exact hs.of_eq rfl
  · exact hs

theorem State.FramesIntact.restart (hs : s.FramesIntact) : s.restart.FramesIntact := by
  obtain ⟨hdfq, hufq, _, _, hd, hc⟩ := hs
  obtain ⟨_, heq, _⟩ := State.restartChannels_spec { s with session := none }
  unfold State.restart
  rw [heq]
  exact ⟨hdfq, hufq, nofun, nofun, hd, hc⟩

theorem State.FramesIntact.perform (hs : s.FramesIntact) (source : Byte) (r : Request) :
    (s.perform source r).state.FramesIntact := by
  have hsame : ∀ {t : State}, t = s → t.FramesIntact := fun h => h ▸ hs
  cases r with
  | identify => exact hs
  | readChannel channel =>
    change (s.doReadChannel channel).state.FramesIntact
    unfold State.doReadChannel
    split <;> exact hs
  | readProfile bank slot =>
    refine hsame (s.readBank_state source bank _ fun b => ?_)
    split <;> rfl
  | readMap bank => exact hsame (s.readBank_state source bank _ fun b => rfl)
  | readPolicy bank => exact hsame (s.readBank_state source bank _ fun b => rfl)
  | readCounters group clear =>
    change (if clear then s.clearGroup group else s).FramesIntact
    split
    · cases group <;> exact hs.of_eq rfl
    · exact hs
  | openSession =>
    change (s.doOpenSession source).state.FramesIntact
    unfold State.doOpenSession
    split
    · exact hs.of_eq rfl
    · split <;> exact hs
  | writeProfile slot p =>
    refine hs.underSession source _ fun held => ?_
    split
    · exact hs
    · split
      · exact hs
      · exact hs.of_eq rfl
  | clearProfile slot =>
    refine hs.underSession source _ fun held => ?_
    split
    · exact hs
    · exact hs.of_eq rfl
  | writeMap entries =>
    refine hs.underSession source _ fun held => ?_
    split
    · exact hs
    · exact hs.of_eq rfl
  | writePolicy policy =>
    refine hs.underSession source _ fun held => ?_
    split
    · exact hs
    · exact hs.of_eq rfl
  | commit =>
    refine hs.underSession source _ fun held => ?_
    split
    · exact hs
    · exact hs.of_eq rfl
  | closeSession => exact hs.underSession source _ fun _ => hs.of_eq rfl
  | unlockChannel channel =>
    refine hs.underSession source _ fun held => ?_
    split
    · exact hs
    · exact hs.unlock _
  | ackReports number =>
    change (s.doAckReports source number).state.FramesIntact
    unfold State.doAckReports
    dsimp only
    split
    · exact hs
    · split <;> exact hs.of_eq rfl
  | warmRestart => exact hs.underSession source _ fun _ => hs.restart

theorem Reply.finish_framesIntact {r : Reply} (hs : r.state.FramesIntact) (source tag kind : Byte) :
    (r.finish source tag kind).FramesIntact := by
  rw [Reply.finish_eq]
  exact hs.answer (e := ⟨source, tag, responseFrame r.state.ownAddress source tag kind r.status r.results⟩)
    (Frame.build_intact ..) rfl rfl rfl

theorem State.FramesIntact.executeRequest (hs : s.FramesIntact) (source tag kind : Byte)
    (request : Option Request) : (s.executeRequest source tag kind request).FramesIntact := by
  have hcounted : State.FramesIntact
      { s with monitor := { s.monitor with requestExecuted := s.monitor.requestExecuted + 1 } } := hs.of_eq rfl
  refine Reply.finish_framesIntact ?_ source tag kind
  cases request with
  | none => exact hcounted
  | some r => exact hcounted.perform source r

theorem State.FramesIntact.replay (hs : s.FramesIntact) {e : CacheEntry} (he : e ∈ s.cache) :
    (s.replay e).FramesIntact := by
  obtain ⟨_, _, _, hcache, _⟩ := id hs
  unfold State.replay
  split
  · exact hs.answer (hcache e he) rfl rfl rfl
  · exact hs.of_eq rfl

theorem State.FramesIntact.manage (hs : s.FramesIntact) (source tag kind : Byte) (request : Option Request) :
    (s.manage source tag kind request).FramesIntact := by
  rcases s.manage_cases source tag kind request with ⟨e, he, heq⟩ | ⟨_, _, heq⟩ | ⟨_, _, heq⟩ <;> rw [heq]
  · exact hs.replay (List.mem_of_find?_eq_some he)
  · exact hs.of_eq rfl
  · exact hs.executeRequest source tag kind request

theorem State.FramesIntact.receiveRequest (hs : s.FramesIntact) (source tag : Byte) (r : Request) :
    (s.receiveRequest source tag r).FramesIntact := by
  have hcounted : s.countReceivedC.FramesIntact := hs.of_eq rfl
  unfold State.receiveRequest
  split
  · exact (hcounted.manage source tag _ _).arbitrate
  · exact hs

/-! Receipt and commands. -/

theorem State.FramesIntact.classifyC (hs : s.FramesIntact) {f : Frame} (hf : frameIntact f) :
    (s.classifyC f).FramesIntact := by
  unfold State.classifyC
  split
  · split
    · exact hs.manage _ _ _ _
    · exact hs.of_eq rfl
  · exact hs.offerDfq hf

theorem State.FramesIntact.receiveC (hs : s.FramesIntact) (bytes : List Byte) : (s.receiveC bytes).FramesIntact := by
  have hcounted : s.countReceivedC.FramesIntact := hs.of_eq rfl
  unfold State.receiveC
  split
  · exact hs.of_eq rfl
  · exact hs.of_eq rfl
  · exact hs.of_eq rfl
  · rename_i hf
    exact (hcounted.classifyC (checkFrame_intact hf)).arbitrate

theorem State.FramesIntact.classifyD (hs : s.FramesIntact) {f : Frame} (hf : frameIntact f) :
    (s.classifyD f).FramesIntact := by
  refine State.FramesIntact.offerUfq ?_ hf
  split
  · exact hs.observe f.payload
  · exact hs

theorem State.FramesIntact.receiveD (hs : s.FramesIntact) (bytes : List Byte) : (s.receiveD bytes).FramesIntact := by
  have hcounted : s.signOfLife.countReceivedD.FramesIntact := hs.of_eq rfl
  unfold State.receiveD
  split
  · exact hs.of_eq rfl
  · exact hs.of_eq rfl
  · exact State.FramesIntact.arbitrate (hs.of_eq rfl)
  · rename_i hf
    exact (hcounted.classifyD (checkFrame_intact hf)).arbitrate

/-- An event that happens under a condition, with the arbiters' acts behind it. -/
theorem State.FramesIntact.arbitrate_ite (hs : s.FramesIntact) (ht : t.FramesIntact) (p : Prop) [Decidable p] :
    (if p then t.arbitrate else s).FramesIntact := by
  split
  · exact ht.arbitrate
  · exact hs

theorem State.FramesIntact.departure (hs : s.FramesIntact) {row : Instr} (hrow : row ∈ departureRows)
    (h : Machine.exec row s = .next t) : t.FramesIntact := by
  rcases exec_departure s hrow with ⟨_, heq⟩ | ⟨_, heq⟩ | heq <;> rw [heq] at h <;> cases h
  · exact hs.leaveD.arbitrate
  · exact hs.leaveC.arbitrate
  · exact hs

/-- Every command keeps the frames intact. -/
theorem State.FramesIntact.exec (hs : s.FramesIntact) (i : Instr) (h : Machine.exec i s = .next t) :
    t.FramesIntact := by
  cases hr : i.request? with
  | some held =>
    obtain ⟨source, tag, r⟩ := held
    rw [exec_request s hr] at h
    cases h
    exact hs.receiveRequest source tag r
  | none =>
    cases i with
    | coldReset straps => cases h; exact s.coldReset_framesIntact straps
    | linkLossD => cases h; exact hs.arbitrate_ite hs.loseD _
    | linkLossC => cases h; exact hs.arbitrate_ite hs.loseC _
    | linkReturn port => cases h; cases port <;> exact State.FramesIntact.arbitrate (hs.of_eq rfl)
    | cPortReceipt bytes =>
      cases h
      split
      · exact hs.receiveC bytes
      · exact hs
    | dPortReceipt bytes =>
      cases h
      split
      · exact hs.receiveD bytes
      · exact hs
    | transmissionComplete port =>
      cases h
      cases port with
      | cPort => exact hs.arbitrate_ite hs.completeC _
      | dPort => exact hs.arbitrate_ite hs.completeD _
    | silenceExpiry => cases h; exact hs.arbitrate_ite hs.fallSilent _
    | retransmitExpiry => cases h; exact hs.arbitrate_ite hs.expireRetransmit _
    | leaseExpiry => cases h; exact hs.arbitrate_ite hs.expireLease _
    | judgedDeparture | dPortDeparture | injectedDeparture | responseDeparture | reportDeparture | ufqDeparture =>
      exact hs.departure (by decide) h
    | _ => simp [Instr.request?] at hr

/-- Settles O55: what is received has passed its check, and what the part builds or rewrites has its check sequence
computed, so that every command, tick and departure keeps the frames intact. -/
theorem stepKeepsFramesIntact : Obligations.StepKeepsFramesIntact := by
  intro s t hs h
  unfold step at h
  split at h
  · rcases s.idle_cases with heq | ⟨i, _, n, heq⟩ <;> rw [heq] at h
    · cases h
      exact hs.of_eq rfl
    · have hcounted : State.FramesIntact { s with freeCount := n } := hs.of_eq rfl
      exact hcounted.exec i h
  · rename_i i rest _
    have htaken : State.FramesIntact { s with pending := rest } := hs.of_eq rfl
    exact htaken.exec i h

end

end Sys2Proof.Machine

/-! SUPPORT. The command judge: the form of a COMMAND payload (R27, R181), what a judged frame does entry by entry (R28
to R32). -/

namespace Sys2Proof.Machine

/-! COMMAND payloads. -/

/-- An entry whose action fits its four bits is read back from its two bytes (R181). -/
theorem CommandEntry.ofBytes_bytes (e : CommandEntry) (h : e.action < 16) :
    CommandEntry.ofBytes (BitVec.ofNat 8 (e.channel.val * 16 + e.action)) e.argument = e := by
  have hlt := e.channel.isLt
  have hfirst : (BitVec.ofNat 8 (e.channel.val * 16 + e.action)).toNat = e.channel.val * 16 + e.action := by
    rw [BitVec.toNat_ofNat]
    omega
  cases e
  simp only [CommandEntry.ofBytes, hfirst, CommandEntry.mk.injEq, and_true] at *
  exact ⟨Fin.ext (by simp only; omega), by omega⟩

/-- Two bytes are those of the entry that is read from them, and its action fits its four bits (R181). -/
theorem CommandEntry.bytes_ofBytes (first argument : Byte) :
    (CommandEntry.ofBytes first argument).bytes = [first, argument] ∧
      (CommandEntry.ofBytes first argument).action < 16 := by
  have hsum : first.toNat / 16 * 16 + first.toNat % 16 = first.toNat := by omega
  refine ⟨?_, Nat.mod_lt _ (by norm_num)⟩
  simp [CommandEntry.ofBytes, CommandEntry.bytes, hsum]

/-- Bytes are read as entries exactly where they are the bytes of these entries (R181). -/
theorem readEntries_iff (bytes : List Byte) (entries : List CommandEntry) : readEntries bytes = some entries ↔
    (∀ e ∈ entries, e.action < 16) ∧ bytes = entries.flatMap CommandEntry.bytes := by
  constructor
  · induction bytes using readEntries.induct generalizing entries with
    | case1 => rintro ⟨⟩; simp
    | case2 => simp [readEntries]
    | case3 first argument rest ih =>
      intro h
      obtain ⟨others, hothers, rfl⟩ := Option.map_eq_some_iff.1 h
      obtain ⟨haction, hrest⟩ := ih others hothers
      obtain ⟨hbytes, hfirst⟩ := CommandEntry.bytes_ofBytes first argument
      exact ⟨List.forall_mem_cons.2 ⟨hfirst, haction⟩, by rw [List.flatMap_cons, hbytes, hrest]; rfl⟩
  · rintro ⟨haction, rfl⟩
    induction entries with
    | nil => rfl
    | cons e others ih =>
      obtain ⟨he, hothers⟩ := List.forall_mem_cons.1 haction
      simp [CommandEntry.bytes, readEntries, e.ofBytes_bytes he, ih hothers]

theorem length_flatMap_bytes (entries : List CommandEntry) :
    (entries.flatMap CommandEntry.bytes).length = 2 * entries.length := by
  simp [CommandEntry.bytes, List.length_flatMap, mul_comm]

/-- The form check of a COMMAND payload (R27, R181). -/
theorem readCommand_iff (payload : List Byte) (entries : List CommandEntry) : readCommand payload = some entries ↔
    1 ≤ entries.length ∧ entries.length ≤ 16 ∧ (entries.map fun e => e.channel).Nodup ∧
      (∀ e ∈ entries, e.action < 16) ∧ payload = commandPayload entries := by
  cases payload with
  | nil => simp [readCommand, commandPayload]
  | cons n rest =>
    simp only [readCommand, commandPayload, List.cons.injEq]
    constructor
    · intro h
      split at h
      · rename_i hsize
        split at h
        · rename_i l hread
          split at h
          · rename_i hnodup
            cases h
            obtain ⟨haction, rfl⟩ := (readEntries_iff _ _).1 hread
            have hcount : entries.length = n.toNat := by
              have := length_flatMap_bytes entries
              omega
            exact ⟨by omega, by omega, hnodup, haction, by simp [hcount], rfl⟩
          · cases h
        · cases h
      · cases h
    · rintro ⟨hlow, hhigh, hnodup, haction, rfl, rfl⟩
      have hcount : (BitVec.ofNat 8 entries.length).toNat = entries.length := by
        rw [BitVec.toNat_ofNat]
        omega
      have hread := (readEntries_iff _ _).2 ⟨haction, rfl⟩
      rw [if_pos (by rw [hcount, length_flatMap_bytes]; exact ⟨rfl, hlow, hhigh⟩), hread]
      exact if_pos hnodup

/-! One entry of a judged frame. -/

variable (s : State)

/-- What a judged entry makes of its channel's context (R28 to R31). -/
def State.judgedContext (s : State) (e : CommandEntry) : Channel :=
  let c := s.channel e.channel
  if e.action = energizeAction then
    if c.disposition = .open_ then
      (c.closeOutside e.channel .superseded).1.energize (s.snapshotFor e.channel) s.observer.openingIndex
    else c.released
  else if e.action = releaseAction then (c.closeOutside e.channel .releasedEarly).1.releasedByController
  else c

/-- The records that a judged entry hands (R28 to R31). -/
def State.judgedRecords (s : State) (e : CommandEntry) : List Record :=
  let c := s.channel e.channel
  if e.action = energizeAction then
    if c.disposition = .open_ then (c.closeOutside e.channel .superseded).2 else [.blocked e.channel 1]
  else if e.action = releaseAction then (c.closeOutside e.channel .releasedEarly).2
  else []

/-- A judged entry is rewritten: an ENERGIZE for a channel that is not OPEN (R29). -/
def State.rewrites (s : State) (e : CommandEntry) : Bool :=
  decide (e.action = energizeAction) && decide ((s.channel e.channel).disposition ≠ .open_)

/-- The entry as it departs (R29). -/
def State.departingEntry (s : State) (e : CommandEntry) : CommandEntry :=
  if s.rewrites e then { e with action := releaseAction, argument := 0 } else e

/-- A channel's context put back and then replaced. -/
theorem State.setChannel_putChannel (ch : ChannelId) (r : Channel × List Record) (c : Channel) :
    (s.putChannel ch r).setChannel ch c =
      { s with channels := s.channels.set ch.val c, report := s.report.hand r.2 } := by
  simp [State.putChannel, State.setChannel, State.hand]

@[simp] theorem State.channel_putChannel_same (ch : ChannelId) (r : Channel × List Record) :
    (s.putChannel ch r).channel ch = r.1 := by
  simp [State.channel_putChannel]

/-- The whole effect of a judged entry (R28 to R31). -/
theorem State.judgeEntry_eq (e : CommandEntry) : s.judgeEntry e =
    ({ s with
        channels := s.channels.set e.channel.val (s.judgedContext e)
        report := s.report.hand (s.judgedRecords e)
        monitor :=
          { s.monitor with
            blockedEntry := s.monitor.blockedEntry + BitVec.ofNat 32 (if s.rewrites e then 1 else 0) } },
      s.departingEntry e) := by
  unfold State.judgeEntry State.judgedContext State.judgedRecords State.departingEntry State.rewrites
  by_cases henergize : e.action = energizeAction
  · by_cases hopen : (s.channel e.channel).disposition = .open_
    · simp only [henergize, hopen, if_true, ne_eq, not_true_eq_false, decide_false, decide_true, Bool.and_false,
        Bool.false_eq_true, if_false, State.admitEnergize, State.setChannel_putChannel, State.channel_putChannel_same,
        BitVec.ofNat_eq_ofNat, BitVec.add_zero]
      rfl
    · simp [henergize, hopen, State.rewriteEnergize, State.setChannel, State.hand]
  · by_cases hrelease : e.action = releaseAction
    · simp [hrelease, energizeAction, releaseAction, State.applyRelease, State.setChannel_putChannel]
    · simp [henergize, hrelease, State.channel, ReportQueue.hand]

/-! The entries of a judged frame. -/

/-- What a judged entry does depends on its channel's context, the ACTIVE map, the generation and the observer alone
(R17, R28 to R31, R41). -/
theorem State.judged_congr {s t : State} {e : CommandEntry} (hc : t.channel e.channel = s.channel e.channel)
    (h : (t.active, t.generation, t.observer) = (s.active, s.generation, s.observer)) :
    t.judgedContext e = s.judgedContext e ∧ t.judgedRecords e = s.judgedRecords e ∧ t.rewrites e = s.rewrites e ∧
      t.departingEntry e = s.departingEntry e := by
  obtain ⟨hactive, hgeneration, hobserver⟩ := by simpa only [Prod.mk.injEq] using h
  simp [State.judgedContext, State.judgedRecords, State.departingEntry, State.rewrites, State.snapshotFor, hc, hactive,
    hgeneration, hobserver]

/-- The whole effect of the entries of a judged frame, which names no channel twice: each acts on its own channel, as it
stands before the frame, and the records stand in entry order (R27 to R31). -/
theorem State.judgeEntries_spec (l : List CommandEntry) (hl : (l.map CommandEntry.channel).Nodup) :
    ∀ s : State, ∃ channels : Vector Channel 16,
      s.judgeEntries l =
        ({ s with
            channels
            report := l.foldl (fun q e => q.hand (s.judgedRecords e)) s.report
            monitor :=
              { s.monitor with blockedEntry := s.monitor.blockedEntry + BitVec.ofNat 32 (l.countP s.rewrites) } },
          l.map s.departingEntry) ∧
      (∀ e ∈ l, channels[e.channel.val] = s.judgedContext e) ∧
      ∀ ch : ChannelId, (∀ e ∈ l, e.channel ≠ ch) → channels[ch.val] = s.channel ch := by
  induction l with
  | nil => intro s; exact ⟨s.channels, by simp [State.judgeEntries], nofun, fun _ _ => rfl⟩
  | cons e l ih =>
    intro s
    obtain ⟨he, hl⟩ := List.nodup_cons.1 hl
    have hne : ∀ o ∈ l, o.channel ≠ e.channel := fun o ho heq => he (heq ▸ List.mem_map_of_mem ho)
    obtain ⟨channels, heq, hnamed, hother⟩ := ih hl (s.judgeEntry e).1
    have hfirst : ∀ ch : ChannelId, (s.judgeEntry e).1.channel ch =
        if ch = e.channel then s.judgedContext e else s.channel ch := fun ch => by
      rw [State.judgeEntry_eq]
      exact s.channel_setChannel e.channel ch _
    have hsame : ∀ o ∈ l, (s.judgeEntry e).1.judgedContext o = s.judgedContext o ∧
        (s.judgeEntry e).1.judgedRecords o = s.judgedRecords o ∧ (s.judgeEntry e).1.rewrites o = s.rewrites o ∧
        (s.judgeEntry e).1.departingEntry o = s.departingEntry o := fun o ho =>
      State.judged_congr (by rw [hfirst, if_neg (hne o ho)]) (by rw [State.judgeEntry_eq])
    refine ⟨channels, ?_, List.forall_mem_cons.2 ⟨?_, fun o ho => ?_⟩, fun ch hch => ?_⟩
    · have hrecords : ∀ q : ReportQueue, l.foldl (fun q o => q.hand ((s.judgeEntry e).1.judgedRecords o)) q =
          l.foldl (fun q o => q.hand (s.judgedRecords o)) q := fun q =>
        List.foldl_ext _ _ _ fun q o ho => by obtain ⟨_, h, _⟩ := hsame o ho; rw [h]
      have hcount : l.countP (s.judgeEntry e).1.rewrites = l.countP s.rewrites :=
        List.countP_congr fun o ho => by obtain ⟨_, _, h, _⟩ := hsame o ho; rw [h]
      have hentries : l.map (s.judgeEntry e).1.departingEntry = l.map s.departingEntry :=
        List.map_congr_left fun o ho => by obtain ⟨_, _, _, h⟩ := hsame o ho; exact h
      rw [State.judgeEntries, heq, hrecords, hcount, hentries, State.judgeEntry_eq, List.foldl_cons, List.map_cons,
        List.countP_cons, add_comm (List.countP _ _), BitVec.ofNat_add]
      simp only [add_assoc]
    · rw [hother e.channel hne, hfirst, if_pos rfl]
    · obtain ⟨hcontext, _⟩ := hsame o ho
      rw [hnamed o ho, hcontext]
    · obtain ⟨hche, hchl⟩ := List.forall_mem_cons.1 hch
      rw [hother ch hchl, hfirst, if_neg hche.symm]

/-! The contexts that judged entries leave. -/

section
variable (c : Channel)

/-- A neutral closure from outside counts an open episode as neutral, and no other counter moves (R66 to R68). -/
theorem Channel.closeOutside_counters (ch : ChannelId) {outcome : EpisodeOutcome}
    (hn : outcome.outcomeClass = .neutral) :
    (c.closeOutside ch outcome).1.opened = c.opened ∧ (c.closeOutside ch outcome).1.passed = c.passed ∧
      (c.closeOutside ch outcome).1.failed = c.failed ∧ (c.closeOutside ch outcome).1.trips = c.trips ∧
      (c.Sound →
        (c.closeOutside ch outcome).1.neutral = c.neutral + (if c.episode.isSome then 1 else 0)) := by
  cases ht : c.tracking with
  | none =>
    rw [c.closeOutside_none ch outcome ht]
    exact ⟨rfl, rfl, rfl, rfl, fun h => by simp [h.no_episode ht]⟩
  | some p =>
    obtain ⟨_, he⟩ := Channel.tracking_eq_some ht
    rw [c.closeOutside_neutral ch outcome hn p.1 p.2 ht]
    exact ⟨rfl, rfl, rfl, rfl, fun _ => by simp [he]⟩

/-- An admitted ENERGIZE: energized, the snapshot, and an episode with its count where one opens (R17, R29, R43). -/
theorem Channel.energize_eq (snapshot : Option Snapshot) (opening : Option Half) :
    c.energize snapshot opening =
      { c with
        energized := true
        snapshot
        episode :=
          match snapshot, opening with
          | some sn, some reference => some (Episode.start sn.profile reference)
          | _, _ => none
        opened := c.opened + (if snapshot.isSome && opening.isSome then 1 else 0) } := by
  cases snapshot <;> cases opening <;> simp [Channel.energize]

end

/-- The contexts that the four kinds of judged entries leave (R28 to R31). -/
theorem State.judgedContext_admitted {e : CommandEntry} (ha : e.action = 1)
    (ho : (s.channel e.channel).disposition = .open_) :
    s.judgedContext e = ((s.channel e.channel).closeOutside e.channel .superseded).1.energize
      (s.snapshotFor e.channel) s.observer.openingIndex := by
  simp [State.judgedContext, energizeAction, ha, ho]

theorem State.judgedContext_rewritten {e : CommandEntry} (ha : e.action = 1)
    (ho : (s.channel e.channel).disposition ≠ .open_) : s.judgedContext e = (s.channel e.channel).released := by
  simp [State.judgedContext, energizeAction, ha, ho]

theorem State.judgedContext_released {e : CommandEntry} (ha : e.action = 2) :
    s.judgedContext e = ((s.channel e.channel).closeOutside e.channel .releasedEarly).1.releasedByController := by
  simp [State.judgedContext, energizeAction, releaseAction, ha]

theorem State.judgedContext_other {e : CommandEntry} (h1 : e.action ≠ 1) (h2 : e.action ≠ 2) :
    s.judgedContext e = s.channel e.channel := by
  simp [State.judgedContext, energizeAction, releaseAction, h1, h2]

theorem State.rewrites_iff (e : CommandEntry) :
    s.rewrites e = true ↔ e.action = 1 ∧ (s.channel e.channel).disposition ≠ .open_ := by
  rw [State.rewrites, Bool.and_eq_true, decide_eq_true_iff, decide_eq_true_iff]
  rfl

theorem State.departingEntry_eq (e : CommandEntry) : s.departingEntry e =
    if e.action = 1 ∧ (s.channel e.channel).disposition ≠ .open_ then { e with action := 2, argument := 0 } else e := by
  simp only [State.departingEntry, State.rewrites_iff]
  rfl

/-- The frame that departs is the one received, or one with the entries given and a check sequence computed anew
(R32). -/
theorem judgedFrame_same (f : Frame) {entries departing : List CommandEntry} (h : departing = entries) :
    judgedFrame f entries departing = f := if_pos h

theorem judgedFrame_rewritten (f : Frame) {entries departing : List CommandEntry} (h : departing ≠ entries) :
    judgedFrame f entries departing = Frame.withCrc { f with payload := commandPayload departing } := if_neg h

/-- A well-formed judged frame that has been selected departs (R28, R169). -/
theorem State.leaveD_judged {f : Frame} {rest : List Frame} {entries : List CommandEntry}
    (hs : s.dStanding = some .queueHead) (hf : s.dfq = f :: rest) (hj : s.judges f = true)
    (he : readCommand f.payload = some entries) : s.leaveD = State.departJudged { s with dfq := rest } f entries := by
  simp [State.leaveD, hs, hf, State.departD, hj, he]

/-- The whole effect of a well-formed judged frame that departs: its entries each at their own channel, their records,
and the frame with the entries that depart (R28 to R32). -/
theorem State.leaveD_judged_spec {f : Frame} {rest : List Frame} {entries : List CommandEntry}
    (hs : s.dStanding = some .queueHead) (hf : s.dfq = f :: rest) (hj : s.judges f = true)
    (he : readCommand f.payload = some entries) : ∃ channels : Vector Channel 16,
      s.leaveD = State.sendD
        { s with
          dfq := rest, channels
          report := entries.foldl (fun q e => q.hand (s.judgedRecords e)) s.report
          monitor :=
            { s.monitor with blockedEntry := s.monitor.blockedEntry + BitVec.ofNat 32 (entries.countP s.rewrites) } }
        (judgedFrame f entries (entries.map s.departingEntry)) ∧
      (∀ e ∈ entries, s.leaveD.channel e.channel = s.judgedContext e) ∧
      ∀ ch, (∀ e ∈ entries, e.channel ≠ ch) → s.leaveD.channel ch = s.channel ch := by
  obtain ⟨_, _, hnodup, _⟩ := (readCommand_iff _ _).1 he
  obtain ⟨channels, hjudged, hnamed, hother⟩ := State.judgeEntries_spec entries hnodup { s with dfq := rest }
  rw [s.leaveD_judged hs hf hj he, State.departJudged, hjudged]
  exact ⟨channels, rfl, hnamed, hother⟩

/-- Settles O21: the entries of a well-formed frame name no channel twice, so that each acts on its channel as it stands
before the frame. -/
theorem judgedDepartureActsEntryByEntry : Obligations.JudgedDepartureActsEntryByEntry := by
  intro s f rest entries hs hf hj he departing payload snapshot opening
  obtain ⟨channels, hleave, hcontext, hunnamed⟩ := s.leaveD_judged_spec hs hf hj he
  have hdeparting : entries.map s.departingEntry = departing :=
    List.map_congr_left fun e _ => s.departingEntry_eq e
  have hsnapshot : ∀ ch, s.snapshotFor ch = snapshot ch := fun ch => by
    simp only [State.snapshotFor, snapshot]
    cases s.active.map[ch.val] with
    | none => rfl
    | some slot => cases hslot : s.active.slots[slot.val] <;> simp [hslot]
  have hopening : s.observer.openingIndex = opening := rfl
  rw [hdeparting] at hleave
  refine ⟨s.leaveD, judgedFrame f entries departing, exec_dRow s (s.dRow_judged hs hf hj), by rw [hleave]; rfl,
    by rw [hleave]; rfl, judgedFrame_same f, fun hne => ?_, fun e hmem ha ho => ?_, fun e hmem ha ho => ?_,
    fun e hmem ha => ?_, fun e hmem ha => ?_, fun e hmem h1 h2 => ?_, hunnamed, by rw [hleave]; rfl,
    by rw [hleave]; rfl, by rw [hleave]; rfl⟩
  · rw [judgedFrame_rewritten f hne]
    exact ⟨rfl, rfl⟩
  · obtain ⟨hdisposition, hpending, hfail, _⟩ := (s.channel e.channel).closeOutside_keeps e.channel .superseded rfl
    obtain ⟨hopened, _⟩ := (s.channel e.channel).closeOutside_counters e.channel (outcome := .superseded) rfl
    rw [hcontext e hmem, s.judgedContext_admitted ha ho, Channel.energize_eq, hsnapshot, hopening, hopened]
    refine ⟨rfl, hdisposition.trans ho, rfl, hpending, hfail, ?_, ?_⟩ <;>
      cases snapshot e.channel <;> cases opening <;> rfl
  · exact (hcontext e hmem).trans (s.judgedContext_rewritten ha ho)
  · obtain ⟨hdisposition, _, hfail, _⟩ := (s.channel e.channel).closeOutside_keeps e.channel .releasedEarly rfl
    obtain ⟨hopened, _⟩ := (s.channel e.channel).closeOutside_counters e.channel (outcome := .releasedEarly) rfl
    rw [hcontext e hmem, s.judgedContext_released ha]
    refine ⟨rfl, rfl, rfl, rfl, hfail, hopened, ?_⟩
    simp [Channel.releasedByController, Channel.released, hdisposition]
  · rw [hcontext e hmem]
    rcases ha with ⟨ha, ho⟩ | ha
    · obtain ⟨_, hcounters⟩ := (s.channel e.channel).closeOutside_counters e.channel (outcome := .superseded) rfl
      rw [s.judgedContext_admitted ha ho, Channel.energize_eq]
      exact hcounters
    · obtain ⟨_, hcounters⟩ := (s.channel e.channel).closeOutside_counters e.channel (outcome := .releasedEarly) rfl
      rw [s.judgedContext_released ha]
      exact hcounters
  · exact (hcontext e hmem).trans (s.judgedContext_other h1 h2)

end Sys2Proof.Machine

/-! SUPPORT. Malformed judged heads: dropped in one event, and what stands behind them departs (R27, R168, R169). -/

namespace Sys2Proof.Machine

variable (s : State)

/-! The selection held at the D-port, and departures that do not read it. -/

/-- Judged entries do not read what the D-port arbiter has selected. -/
theorem State.judgeEntries_dSelected (d : Option DSource) (l : List CommandEntry) : ∀ s : State,
    State.judgeEntries { s with dSelected := d } l =
      ({ (s.judgeEntries l).1 with dSelected := d }, (s.judgeEntries l).2) := by
  induction l with
  | nil => intro s; rfl
  | cons e l ih =>
    intro s
    have hfirst : State.judgeEntry { s with dSelected := d } e =
        ({ (s.judgeEntry e).1 with dSelected := d }, (s.judgeEntry e).2) := by
      rw [State.judgeEntry_eq, State.judgeEntry_eq]
      rfl
    rw [State.judgeEntries, hfirst, ih]
    rfl

theorem State.departJudged_dSelected (d : Option DSource) (f : Frame) (entries : List CommandEntry) :
    State.departJudged { s with dSelected := d } f entries = { s.departJudged f entries with dSelected := d } := by
  rw [State.departJudged, State.judgeEntries_dSelected]
  rfl

theorem foldl_applyInjection_dSelected (d : Option DSource) (l : List ChannelId) : ∀ s : State,
    l.foldl State.applyInjection { s with dSelected := d } =
      { l.foldl State.applyInjection s with dSelected := d } := by
  induction l with
  | nil => intro s; rfl
  | cons ch l ih => intro s; exact ih (s.applyInjection ch)

theorem State.departInjection_dSelected (d : Option DSource) :
    State.departInjection { s with dSelected := d } = { s.departInjection with dSelected := d } := by
  have hpass := foldl_applyInjection_dSelected d s.pendingChannels s
  simp only [State.departInjection]
  rw [show State.pendingChannels { s with dSelected := d } = s.pendingChannels from rfl, hpass]
  rfl

theorem State.leaveC_dSelected (d : Option DSource) :
    State.leaveC { s with dSelected := d } = { s.leaveC with dSelected := d } := by
  unfold State.leaveC
  rw [show State.cStanding { s with dSelected := d } = s.cStanding from rfl]
  split
  · unfold State.departResponse
    dsimp only
    split <;> rfl
  · unfold State.departReport
    dsimp only
    split <;> rfl
  · unfold State.departForward
    dsimp only
    split <;> rfl
  · rfl

theorem State.concludeC_dSelected (d : Option DSource) :
    State.concludeC { s with dSelected := d } = { s.concludeC with dSelected := d } := by
  unfold State.concludeC
  rw [show State.cHeld { s with dSelected := d } = s.cHeld from rfl]
  split
  · rfl
  · exact s.leaveC_dSelected d

/-- The C-port's departure leaves the selection that stands at the D-port alone (R171). -/
theorem State.concludeC_dStanding : s.concludeC.dStanding = s.dStanding := by
  unfold State.concludeC
  split
  · rfl
  · exact s.leaveC_dSide.1

/-- Where no selection stands at the D-port, the arbiters do not read what was selected there before. -/
theorem State.arbitrate_dSelected {d : Option DSource} (hs : s.dStanding = none)
    (hd : State.dStanding { s with dSelected := d } = none) :
    State.arbitrate { s with dSelected := d } = s.arbitrate := by
  have hselect : ∀ t : State, t.dStanding = none → State.dStanding { t with dSelected := d } = none →
      State.select { t with dSelected := d } = t.select := fun t ht htd => by
    simp only [State.select, ht, htd]
    rfl
  rw [State.arbitrate_dStays _ (.inl hd), s.arbitrate_dStays (.inl hs), State.concludeC_dSelected]
  refine hselect _ ((s.concludeC_dStanding).trans hs) ?_
  rw [← State.concludeC_dSelected]
  exact (State.concludeC_dStanding _).trans hd

/-- Two departures at the D-port that differ at most in the selection held come to the same event. -/
theorem exec_dRow_congr {s t : State} {row row' : Instr} {d : Option DSource} (hs : s.dRow = some row)
    (ht : t.dRow = some row') (h : t.leaveD = { s.leaveD with dSelected := d }) : exec row s = exec row' t := by
  have hdone := s.leaveD_dStanding
  have hdone' := t.leaveD_dStanding
  rw [exec_dRow s hs, exec_dRow t ht]
  generalize s.leaveD = u at h hdone
  rw [h] at hdone' ⊢
  rw [u.arbitrate_dSelected hdone hdone']

/-! Malformed heads. -/

/-- `n` malformed judged frames dropped: a MALFORMED record handed for each, and the counter (R27). -/
def State.droppedMalformed (s : State) (n : Nat) : State :=
  { s with
    report := (List.replicate n (Record.malformed 1)).foldl (fun q r => q.hand [r]) s.report
    monitor := { s.monitor with malformedCommand := s.monitor.malformedCommand + BitVec.ofNat 32 n } }

theorem State.droppedMalformed_zero : s.droppedMalformed 0 = s := by simp [State.droppedMalformed]

theorem State.dropMalformed_dropped (n : Nat) :
    s.dropMalformed.droppedMalformed n = s.droppedMalformed (n + 1) := by
  have hcount : s.monitor.malformedCommand + 1 + BitVec.ofNat 32 n =
      s.monitor.malformedCommand + BitVec.ofNat 32 (n + 1) := by
    rw [add_assoc, add_comm (1 : Count), BitVec.ofNat_add]
    rfl
  simp only [State.droppedMalformed, State.dropMalformed, State.hand, hcount]
  rfl

/-- A judged frame that is malformed (R27). -/
abbrev State.Malformed (s : State) (f : Frame) : Prop := s.judges f = true ∧ readCommand f.payload = none

/-- A malformed head that has been selected is dropped, and the arbiter selects again (R27, R169). -/
theorem State.leaveD_malformed {b : Frame} {rest : List Frame} (hs : s.dStanding = some .queueHead)
    (hf : s.dfq = b :: rest) (hb : s.Malformed b) : s.leaveD = s.dropMalformed.departD false rest := by
  simp [State.leaveD, hs, hf, State.departD, hb.1, hb.2]

/-- An injection that is offered departs before the DFQ head (R168). -/
theorem State.departD_injection (h : s.injectionOffered = true) (l : List Frame) :
    s.departD false l = State.departInjection { s with dfq := l } := by
  have h' : ∀ dfq, State.injectionOffered { s with dfq } = true := fun _ => h
  cases l <;> simp [State.departD, h, h']

/-- Without an injection, what the arbiter selects behind a dropped head: nothing, or the frame that is then the head
(R168, R169). -/
theorem State.departD_drained (h : s.injectionOffered = false) : s.departD false [] = { s with dfq := [] } := by
  have h' : State.injectionOffered { s with dfq := [] } = false := h
  simp [State.departD, h']

theorem State.departD_unjudged {f : Frame} {rest : List Frame} (h : s.injectionOffered = false)
    (hj : s.judges f = false) : s.departD false (f :: rest) = State.sendD { s with dfq := rest } f := by
  simp [State.departD, h, hj]

theorem State.departD_judged {f : Frame} {rest : List Frame} {entries : List CommandEntry}
    (h : s.injectionOffered = false) (hj : s.judges f = true) (he : readCommand f.payload = some entries) :
    s.departD false (f :: rest) = State.departJudged { s with dfq := rest } f entries := by
  simp [State.departD, h, hj, he]

/-- Without an injection, further malformed heads are dropped in the same way (R27, R169). -/
theorem State.departD_malformed (bad rest : List Frame) : ∀ s : State, s.injectionOffered = false →
    (∀ b ∈ bad, s.Malformed b) →
      s.departD false (bad ++ rest) = (s.droppedMalformed bad.length).departD false rest := by
  induction bad with
  | nil => intro s _ _; rw [List.nil_append, List.length_nil, s.droppedMalformed_zero]
  | cons b bad ih =>
    intro s hi hbad
    obtain ⟨⟨hj, hr⟩, hbad⟩ := List.forall_mem_cons.1 hbad
    have hdrop : s.departD false (b :: bad ++ rest) = s.dropMalformed.departD false (bad ++ rest) := by
      simp [State.departD, hi, hj, hr]
    rw [hdrop, ih s.dropMalformed hi hbad, State.dropMalformed_dropped, List.length_cons]

/-- Without a selection held, an injection that is offered stands at a free port (R168). -/
theorem State.dStanding_injection (hr : s.dPort.ready = true) (hn : s.dSelected = none)
    (hi : s.injectionOffered = true) : s.dStanding = some .injection := by
  rw [s.dStanding_fresh hr hn, State.dSelect, if_pos hi]

/-- Without a selection held and without an injection, the DFQ head stands at a free port (R168). -/
theorem State.dStanding_queue (hr : s.dPort.ready = true) (hn : s.dSelected = none)
    (hi : s.injectionOffered = false) :
    s.dStanding = if s.dfq.isEmpty then none else some .queueHead := by
  rw [s.dStanding_fresh hr hn, State.dSelect, if_neg (by simp [hi])]

/-- Settles O22: the form is that of the entries' bytes, and each departure behind the dropped heads is the departure
of the state without them. -/
theorem malformedHeadsAreDroppedInOneEvent : Obligations.MalformedHeadsAreDroppedInOneEvent := by
  refine ⟨readCommand_iff, fun s bad rest hs hne hf hbad => ?_⟩
  intro dropped
  obtain ⟨b, bad, rfl⟩ := List.exists_cons_of_ne_nil hne
  obtain ⟨hb, hbad⟩ := List.forall_mem_cons.1 hbad
  have hready : s.dPort.ready = true := by
    obtain ⟨hup, hsending, _⟩ := s.dStanding_spec hs
    simp [Port.ready, hup, hsending]
  have hrow : s.dRow = some .judgedDeparture := s.dRow_judged hs hf hb.1
  have hfirst : s.leaveD = s.dropMalformed.departD false (bad ++ rest) := s.leaveD_malformed hs hf hb
  refine ⟨fun hi => ?_, fun hi => ?_⟩
  · have hstands : (dropped 1 (bad ++ rest)).dStanding = some .injection :=
      State.dStanding_injection _ hready rfl hi
    refine exec_dRow_congr (d := none) hrow ((State.dRow_iff _ _).2 (.inl ⟨hstands, rfl⟩)) ?_
    rw [hfirst, s.dropMalformed.departD_injection hi, List.tail_cons, State.leaveD, hstands]
    exact State.departInjection_dSelected { s.dropMalformed with dfq := bad ++ rest } none
  have hall : s.leaveD = (s.droppedMalformed (b :: bad).length).departD false rest := by
    rw [hfirst, State.departD_malformed bad rest s.dropMalformed hi hbad, State.dropMalformed_dropped]
    rfl
  have hqueue : ∀ waiting, (dropped (b :: bad).length waiting).dStanding =
      if waiting.isEmpty then none else some .queueHead := fun waiting =>
    State.dStanding_queue (dropped (b :: bad).length waiting) hready rfl hi
  refine ⟨fun hrest => ?_, fun f behind hrest hj => ?_, fun f behind entries hrest hj he => ?_⟩
  · have hdrained : s.leaveD = { s.droppedMalformed (b :: bad).length with dfq := [] } := by
      rw [hall, hrest]
      exact State.departD_drained _ hi
    rw [exec_dRow s hrow, hdrained]
    refine congrArg _ (State.arbitrate_dSelected _ (d := none) ?_ (hqueue [])).symm
    rw [← hdrained]
    exact s.leaveD_dStanding
  all_goals
    have hstands : (dropped (b :: bad).length rest).dStanding = some .queueHead := by
      rw [hqueue, hrest]
      rfl
  · refine exec_dRow_congr (d := none) hrow (State.dRow_unjudged _ hstands hrest hj) ?_
    rw [hall, State.leaveD_unjudged _ hstands hrest hj, hrest,
      (s.droppedMalformed (b :: bad).length).departD_unjudged hi hj]
    rfl
  · refine exec_dRow_congr (d := none) hrow (State.dRow_judged _ hstands hrest hj) ?_
    rw [hall, State.leaveD_judged _ hstands hrest hj he, hrest,
      (s.droppedMalformed (b :: bad).length).departD_judged hi hj he]
    exact State.departJudged_dSelected { s.droppedMalformed (b :: bad).length with dfq := behind } none f entries

end Sys2Proof.Machine

/-! SUPPORT. What an accepted frame makes of a channel's context: the voids, then the overcurrent check (R49, R70 to
R72, R79, R86 to R90, R107, R110). -/

namespace Sys2Proof.Machine

/-! Trips. -/

section
variable (c : Channel) (ch : ChannelId)

/-- The lock decision on a channel that has tripped: it is LOCKED exactly where lock_after is reached (R70, R71). -/
theorem Channel.decideLock_tripped (sn : Snapshot) (hd : c.disposition = .tripped) (hp : c.pendingInjection = true) :
    c.decideLock ch sn =
      ({ c with
          disposition :=
            if sn.profile.lockAfter ≠ 0 ∧ sn.profile.lockAfter ≤ c.failCount then .locked else .tripped },
        if sn.profile.lockAfter ≠ 0 ∧ sn.profile.lockAfter ≤ c.failCount then
          [.locked ch c.failCount sn.index sn.generation] else []) := by
  have hlocks : c.locks sn = true ↔ sn.profile.lockAfter ≠ 0 ∧ sn.profile.lockAfter ≤ c.failCount := by
    simp [Channel.locks, hd]
  unfold Channel.decideLock
  by_cases h : sn.profile.lockAfter ≠ 0 ∧ sn.profile.lockAfter ≤ c.failCount
  · rw [if_pos (hlocks.2 h), if_pos h, if_pos h, hp]
    rfl
  · rw [if_neg fun hl => h (hlocks.1 hl), if_neg h, if_neg h, ← hd]

/-- Without an episode an accepted frame is the overcurrent check (R86). -/
theorem Channel.handleFrame_untracked (x : Half) (entry : Option SampleEntry) (he : c.episode = none) :
    c.handleFrame ch x entry = c.checkOvercurrent ch x entry := by
  have ht : c.tracking = none := by simp [Channel.tracking, he]
  simp [Channel.handleFrame, ht]

/-- An entry that fails a condition of the overcurrent check has no effect (R87). -/
theorem Channel.checkOvercurrent_passes {x : Half} {entry : Option SampleEntry}
    (h : entry = none ∨ c.energized = false ∨ c.snapshot = none ∨ c.disposition ≠ .open_) :
    c.checkOvercurrent ch x entry = (c, []) := by
  unfold Channel.checkOvercurrent
  split
  · rename_i present sn hs
    rw [if_neg]
    rcases h with h | h | h | h <;> simp_all
  · rfl

theorem Channel.checkOvercurrent_below {x : Half} {entry : SampleEntry} {sn : Snapshot} (hs : c.snapshot = some sn)
    (hl : entry.current < (sn.profile.ocLevel : Int)) : c.checkOvercurrent ch x (some entry) = (c, []) := by
  have ht : entry.trips sn.profile = false := by simpa [SampleEntry.trips] using hl
  simp [Channel.checkOvercurrent, hs, ht]

/-- A trip outside an episode: TRIP, and LOCKED behind it if it locks (R72, R88, R89). -/
theorem Channel.checkOvercurrent_trips {x : Half} {entry : SampleEntry} {sn : Snapshot} (hs : c.snapshot = some sn)
    (hen : c.energized = true) (ho : c.disposition = .open_) (hl : (sn.profile.ocLevel : Int) ≤ entry.current) :
    c.checkOvercurrent ch x (some entry) =
      ({ c with
          disposition :=
            if sn.profile.lockAfter ≠ 0 ∧ sn.profile.lockAfter ≤ min 15 (c.failCount + 1) then .locked else .tripped
          pendingInjection := true
          failCount := min 15 (c.failCount + 1)
          trips := c.trips + 1 },
        .trip ⟨ch, x, entry.current, sn.index, sn.generation, min 15 (c.failCount + 1)⟩ ::
          if sn.profile.lockAfter ≠ 0 ∧ sn.profile.lockAfter ≤ min 15 (c.failCount + 1) then
            [.locked ch (min 15 (c.failCount + 1)) sn.index sn.generation] else []) := by
  have ht : entry.trips sn.profile = true := by simpa [SampleEntry.trips] using hl
  have hcheck : c.checkOvercurrent ch x (some entry) = c.trip.accountTrip ch sn x entry.current := by
    simp [Channel.checkOvercurrent, hs, hen, ho, ht]
  rw [hcheck, Channel.accountTrip]
  dsimp only
  rw [Channel.decideLock_tripped _ ch sn rfl rfl]
  rfl

/-- A trip within an episode closes it OVERCURRENT (R49, R67, R72, R88). -/
theorem Channel.close_trip (sn : Snapshot) (e : Episode) :
    (c.trip.close ch sn e .overcurrent none).1 =
      { c with
        disposition :=
          if sn.profile.lockAfter ≠ 0 ∧ sn.profile.lockAfter ≤ min 15 (c.failCount + 1) then .locked else .tripped
        pendingInjection := true
        episode := none
        failCount := min 15 (c.failCount + 1)
        failed := c.failed + 1 } := by
  simp only [Channel.close, EpisodeOutcome.outcomeClass, if_true, Channel.account]
  rw [Channel.decideLock_tripped _ ch sn rfl rfl]
  rfl

/-- An entry at or above oc_level trips an energized OPEN channel, with an episode or without (R49, R72, R86, R88). -/
theorem Channel.handleFrame_trips {x : Half} {entry : SampleEntry} {sn : Snapshot} (hs : c.snapshot = some sn)
    (hen : c.energized = true) (ho : c.disposition = .open_) (hl : (sn.profile.ocLevel : Int) ≤ entry.current) :
    (c.handleFrame ch x (some entry)).1 =
      { c with
        disposition :=
          if sn.profile.lockAfter ≠ 0 ∧ sn.profile.lockAfter ≤ min 15 (c.failCount + 1) then .locked else .tripped
        pendingInjection := true
        episode := none
        failCount := min 15 (c.failCount + 1)
        failed := c.failed + (if c.episode = none then 0 else 1)
        trips := c.trips + (if c.episode = none then 1 else 0) } := by
  cases he : c.episode with
  | none =>
    rw [c.handleFrame_untracked ch x _ he, c.checkOvercurrent_trips ch hs hen ho hl]
    simp [he]
  | some e =>
    have ht : entry.trips sn.profile = true := by simpa [SampleEntry.trips] using hl
    have hhandle : e.handle sn.profile x (some entry) = .trips (e.count x true) := by
      simp [Episode.handle, ht]
    have hclose : c.handleFrame ch x (some entry) = c.trip.close ch sn (e.count x true) .overcurrent none := by
      simp [Channel.handleFrame, c.tracking_some hs he, hhandle]
    rw [hclose, c.close_trip ch sn]
    simp

/-- A neutral closure from outside touches the neutral counter and the episode, which it closes where a snapshot is held
(R66, R79). -/
theorem Channel.closeOutside_voids {outcome : EpisodeOutcome} (hn : outcome.outcomeClass = .neutral) {sn : Snapshot}
    (hs : c.snapshot = some sn) : ∃ n, (c.closeOutside ch outcome).1 = { c with neutral := n, episode := none } := by
  cases he : c.episode with
  | none =>
    have ht : c.tracking = none := by simp [Channel.tracking, he]
    rw [c.closeOutside_none ch outcome ht, ← he]
    exact ⟨c.neutral, rfl⟩
  | some e =>
    rw [c.closeOutside_neutral ch outcome hn sn e (c.tracking_some hs he)]
    exact ⟨_, rfl⟩

end

/-! A frame at a channel. -/

section
variable (s : State) (ch : ChannelId)

theorem State.channel_voidEpisodes (outcome : EpisodeOutcome) :
    (s.voidEpisodes outcome).channel ch = ((s.channel ch).closeOutside ch outcome).1 := by
  obtain ⟨channels, heq, hch⟩ := s.voidEpisodes_spec outcome
  rw [heq]
  exact hch ch

theorem State.channel_trackFrame (m : Sample) :
    (s.trackFrame m).channel ch = ((s.channel ch).handleFrame ch m.index (m.entry? ch)).1 := by
  obtain ⟨channels, heq, hch⟩ := s.trackFrame_spec m
  rw [heq]
  exact hch ch

/-- The frame takes the supply LOW (R110). -/
abbrev State.SupplyFalls (s : State) (supply : Nat) : Prop :=
  s.observer.supply = .ok ∧ s.active.policy.supplyLow ≠ 0 ∧ supply < s.active.policy.supplyLow

/-- A channel's context behind the voids of an accepted frame (R79, R107, R110). -/
def State.voidedContext (s : State) (m : Sample) (ch : ChannelId) : Channel :=
  let c :=
    if classify s.observer.reference m.index = .resync then ((s.channel ch).closeOutside ch .voidGap).1
    else s.channel ch
  if s.SupplyFalls m.supply then (c.closeOutside ch .voidSupply).1 else c

theorem State.channel_evaluateSupply (supply : Nat) : (s.evaluateSupply supply).channel ch =
    if s.SupplyFalls supply then ((s.channel ch).closeOutside ch .voidSupply).1 else s.channel ch := by
  unfold State.evaluateSupply
  dsimp only
  split
  · rename_i hok
    by_cases hlow : s.active.policy.supplyLow ≠ 0 ∧ supply < s.active.policy.supplyLow
    · rw [if_pos hlow, if_pos ⟨hok, hlow⟩, State.channel_hand]
      exact State.channel_voidEpisodes _ ch .voidSupply
    · rw [if_neg hlow, if_neg fun h => hlow h.2]
  · rename_i hlow
    have hstays : ¬s.SupplyFalls supply := fun ⟨hok, _⟩ => by rw [hlow] at hok; cases hok
    rw [if_neg hstays]
    split <;> rfl

theorem State.channel_acceptSample (m : Sample) : (s.acceptSample m).channel ch =
    ((if s.SupplyFalls m.supply then ((s.channel ch).closeOutside ch .voidSupply).1
      else s.channel ch).handleFrame ch m.index (m.entry? ch)).1 := by
  rw [State.acceptSample, State.channel_trackFrame, State.channel_evaluateSupply]
  rfl

theorem State.resync_observer : s.resync.observer = s.observer := by
  obtain ⟨channels, heq, _⟩ := s.voidEpisodes_spec .voidGap
  rw [State.resync, heq]

theorem State.resync_active : s.resync.active = s.active := by
  obtain ⟨channels, heq, _⟩ := s.voidEpisodes_spec .voidGap
  rw [State.resync, heq]

theorem State.channel_resync : s.resync.channel ch = ((s.channel ch).closeOutside ch .voidGap).1 := by
  obtain ⟨channels, heq, hch⟩ := s.voidEpisodes_spec .voidGap
  rw [State.resync, heq]
  exact hch ch

/-- An accepted frame at a channel: the voids, then the frame itself (R45, R107, R108). -/
theorem State.channel_observeSample (m : Sample) (h : classify s.observer.reference m.index ≠ .duplicate) :
    (s.observeSample m).channel ch = ((s.voidedContext m ch).handleFrame ch m.index (m.entry? ch)).1 := by
  unfold State.observeSample
  cases hc : classify s.observer.reference m.index with
  | duplicate => exact absurd hc h
  | resync =>
    have hvoided : s.voidedContext m ch =
        if s.SupplyFalls m.supply then
          (((s.channel ch).closeOutside ch .voidGap).1.closeOutside ch .voidSupply).1
        else ((s.channel ch).closeOutside ch .voidGap).1 := by
      simp only [State.voidedContext, hc, if_true]
    have hfalls : s.resync.SupplyFalls m.supply ↔ s.SupplyFalls m.supply := by
      rw [State.SupplyFalls, s.resync_observer, s.resync_active]
    dsimp only
    rw [State.channel_acceptSample, s.channel_resync, hvoided]
    simp only [hfalls]
  | absent | advance =>
    have hvoided : s.voidedContext m ch =
        if s.SupplyFalls m.supply then ((s.channel ch).closeOutside ch .voidSupply).1 else s.channel ch := by
      simp only [State.voidedContext, hc, reduceCtorEq, if_false]
    dsimp only
    rw [State.channel_acceptSample, hvoided]

end

/-! The class of an index (R106). -/

theorem classify_duplicate_iff (reference : Option Half) (x : Half) :
    classify reference x = .duplicate ↔ reference = some x := by
  cases reference with
  | none => simp [classify]
  | some r =>
    have hzero : periods r x = 0 ↔ r = x := by
      unfold periods
      bv_omega
    unfold classify
    dsimp only
    split
    · rename_i h; simp [hzero.1 h]
    · rename_i h
      have hne : r ≠ x := fun heq => h (hzero.2 heq)
      split <;> simp [hne]

theorem classify_resync_iff (reference : Option Half) (x : Half) :
    classify reference x = .resync ↔ ∃ r, reference = some r ∧ 32768 ≤ (x - r).toNat := by
  cases reference with
  | none => simp [classify]
  | some r =>
    have hfar : (∃ r', some r = some r' ∧ 32768 ≤ (x - r').toNat) ↔ 32768 ≤ periods r x := by simp [periods]
    rw [hfar, classify]
    by_cases hzero : periods r x = 0
    · simp [hzero]
    · by_cases hnear : periods r x < 32768
      · simp [hzero, hnear]
      · simp [hzero, hnear, Nat.not_lt.1 hnear]

/-- Behind the voids of an accepted frame a channel that holds a snapshot has its context, without the episode that they
close (R79). -/
theorem State.voidedContext_eq (s : State) (m : Sample) (ch : ChannelId) {sn : Snapshot}
    (hs : (s.channel ch).snapshot = some sn) : ∃ n episode, s.voidedContext m ch =
      { s.channel ch with neutral := n, episode } ∧
      (episode = none ↔ (s.channel ch).episode = none ∨
        classify s.observer.reference m.index = .resync ∨ s.SupplyFalls m.supply) := by
  unfold State.voidedContext
  obtain ⟨n, hgap⟩ := (s.channel ch).closeOutside_voids ch (outcome := .voidGap) rfl hs
  obtain ⟨k, hsupply⟩ := (s.channel ch).closeOutside_voids ch (outcome := .voidSupply) rfl hs
  by_cases hresync : classify s.observer.reference m.index = .resync
  · rw [if_pos hresync, hgap]
    split
    · obtain ⟨j, hboth⟩ := Channel.closeOutside_voids { s.channel ch with neutral := n, episode := none } ch
        (outcome := .voidSupply) rfl hs
      exact ⟨j, none, hboth, iff_of_true rfl (.inr (.inl hresync))⟩
    · exact ⟨n, none, rfl, iff_of_true rfl (.inr (.inl hresync))⟩
  · rw [if_neg hresync]
    split
    · rename_i hfalls
      exact ⟨k, none, hsupply, iff_of_true rfl (.inr (.inr hfalls))⟩
    · rename_i hfalls
      exact ⟨_, _, rfl, ⟨.inl, fun h => h.resolve_right (not_or.2 ⟨hresync, hfalls⟩)⟩⟩

/-! The obligation. -/

@[simp] theorem State.channel_offerUfq (s : State) (f : Frame) (ch : ChannelId) :
    (s.offerUfq f).channel ch = s.channel ch := by
  unfold State.offerUfq
  split <;> rfl

/-- A SAMPLE frame received: what its observation makes of a channel (R45, R166). -/
theorem State.channel_classifyD_sample (s : State) {f : Frame} {m : Sample} (hk : f.kind = Frame.sampleKind)
    (hm : readSample f.payload = some m) (ch : ChannelId) :
    (s.classifyD f).channel ch = (s.observeSample m).channel ch := by
  simp [State.classifyD, hk, State.observe, hm]

theorem execDPortReceipt_valid (s : State) {bytes : List Byte} {f : Frame} (hup : s.dPort.up = true)
    (hf : checkFrame bytes = .valid f) :
    exec (.dPortReceipt bytes) s = .next (s.signOfLife.countReceivedD.classifyD f).arbitrate := by
  change Host.Outcome.next (if s.dPort.up then s.receiveD bytes else s) = _
  rw [if_pos hup, State.receiveD, hf]

/-- Settles O18: the voids leave the context but for the episode, and the entry then trips the channel, in an episode or
outside. -/
theorem overcurrentTripsTheChannel : Obligations.OvercurrentTripsTheChannel := by
  refine ⟨fun s bytes f m ch sn entry hup hf hk hm href hen hs ho hentry hl => ?_, fun c ch x entry he => ⟨fun h => ?_,
    fun sn present hs hpresent => ⟨fun hl => ?_, fun hen ho hl => ?_⟩⟩⟩
  · intro voids inEpisode failCount
    obtain ⟨n, episode, hvoided, hepisode⟩ := State.voidedContext_eq s m ch hs
    have hvoids : episode = none ↔ ¬inEpisode := by
      rw [hepisode, classify_resync_iff]
      simp only [inEpisode, voids, not_and_or, not_not, ne_eq]
    have hduplicate : classify s.observer.reference m.index ≠ .duplicate := fun h =>
      href ((classify_duplicate_iff _ _).1 h)
    have hchannel : (s.signOfLife.countReceivedD.classifyD f).channel ch =
        ((s.voidedContext m ch).handleFrame ch m.index (m.entry? ch)).1 :=
      (State.channel_classifyD_sample _ hk hm ch).trans
        (s.signOfLife.countReceivedD.channel_observeSample ch m hduplicate)
    rw [hentry, Channel.handleFrame_trips _ ch (by rw [hvoided]; exact hs) (by rw [hvoided]; exact hen)
      (by rw [hvoided]; exact ho) hl, hvoided] at hchannel
    refine ⟨_, execDPortReceipt_valid s hup hf, ?_⟩
    rw [State.faultLow_iff, hchannel]
    refine ⟨rfl, hen, hs, rfl, rfl, rfl, fun h => ?_, fun h => ?_, rfl, .inl ⟨ch, ?_⟩⟩
    · have hnone : ¬episode = none := fun hn => hvoids.1 hn h
      simp [hnone]
    · simp [hvoids.2 h]
    · rw [hchannel]
      split <;> simp
  · rw [c.handleFrame_untracked ch x entry he, c.checkOvercurrent_passes ch h]
  · rw [c.handleFrame_untracked ch x entry he, hpresent, c.checkOvercurrent_below ch hs hl]
  · rw [c.handleFrame_untracked ch x entry he, hpresent, c.checkOvercurrent_trips ch hs hen ho hl]

end Sys2Proof.Machine

/-! SUPPORT. A channel that is not OPEN is never energized (R22, R29): what the events before a departure leave of it,
what a departure does to it. -/

namespace Sys2Proof.Machine

/-! A channel that is not OPEN. -/

/-- A context that is not OPEN stays so, with its energized flag. -/
abbrev Channel.KeepsShut (c d : Channel) : Prop :=
  c.disposition ≠ .open_ → d.disposition ≠ .open_ ∧ d.energized = c.energized

section
variable (c : Channel) (ch : ChannelId)

theorem Channel.KeepsShut.trans {c d e : Channel} (h : c.KeepsShut d) (h' : d.KeepsShut e) :
    c.KeepsShut e := fun hc => by
  obtain ⟨hd, hcd⟩ := h hc
  obtain ⟨he, hde⟩ := h' hd
  exact ⟨he, hde.trans hcd⟩

theorem Channel.close_keepsShut (sn : Snapshot) (e : Episode) (outcome : EpisodeOutcome) (r : Option Nat) :
    c.KeepsShut (c.close ch sn e outcome r).1 := fun hc => by
  obtain ⟨_, henergized, _⟩ := c.close_fields ch sn e outcome r
  refine ⟨?_, henergized⟩
  obtain ⟨hdisposition, _⟩ := c.account_fields outcome.outcomeClass
  unfold Channel.close
  dsimp only
  split
  · rcases (c.account outcome.outcomeClass).decideLock_cases ch sn with ⟨_, heq⟩ | ⟨_, heq⟩ <;> rw [heq]
    · simp
    · rwa [← hdisposition] at hc
  · rwa [← hdisposition] at hc

theorem Channel.closeOutside_keepsShut (outcome : EpisodeOutcome) : c.KeepsShut (c.closeOutside ch outcome).1 := by
  unfold Channel.closeOutside
  split
  · exact c.close_keepsShut ch _ _ outcome none
  · exact fun hc => ⟨hc, rfl⟩

theorem Channel.handleFrame_keepsShut (x : Half) (entry : Option SampleEntry) :
    c.KeepsShut (c.handleFrame ch x entry).1 := by
  unfold Channel.handleFrame
  split
  · split
    · exact fun hc => ⟨hc, rfl⟩
    · exact c.close_keepsShut ch _ _ _ _
    · intro _
      exact c.trip.close_keepsShut ch _ _ .overcurrent none (by simp [Channel.trip])
  · intro hc
    rw [c.checkOvercurrent_passes ch (.inr (.inr (.inr hc)))]
    exact ⟨hc, rfl⟩

end

/-! Events before a departure. -/

/-- An event that leaves `ch` shut if it was, the tables in force, and the D-port's transmitter, or frees it. -/
structure State.KeepsShut (s u : State) (ch : ChannelId) : Prop where
  active : u.active = s.active
  sending : u.dPort.sending = none ∨ u.dPort.sending = s.dPort.sending
  channel : (s.channel ch).KeepsShut (u.channel ch)

section
variable {s t u : State} {ch : ChannelId}

theorem State.KeepsShut.of_eq
    (h : (t.active, t.channels, t.dPort.sending) = (s.active, s.channels, s.dPort.sending)) : s.KeepsShut t ch := by
  obtain ⟨hactive, hchannels, hsending⟩ := by simpa only [Prod.mk.injEq] using h
  refine ⟨hactive, .inr hsending, fun hc => ?_⟩
  rw [State.channel_congr hchannels]
  exact ⟨hc, rfl⟩

theorem State.KeepsShut.trans (h : s.KeepsShut t ch) (h' : t.KeepsShut u ch) : s.KeepsShut u ch :=
  ⟨h'.active.trans h.active, h'.sending.elim .inl fun hu => h.sending.imp hu.trans hu.trans,
    h.channel.trans h'.channel⟩

theorem State.fallSilent_keepsShut : s.KeepsShut s.fallSilent ch := by
  obtain ⟨channels, heq, hch⟩ := s.fallSilent_spec
  have hchannel : s.fallSilent.channel ch = ((s.channel ch).closeOutside ch .voidSilent).1 := by
    rw [heq]
    exact hch ch
  refine ⟨by rw [heq], .inr (by rw [heq]), ?_⟩
  rw [hchannel]
  exact (s.channel ch).closeOutside_keepsShut ch .voidSilent

theorem State.voidedContext_keepsShut (m : Sample) : (s.channel ch).KeepsShut (s.voidedContext m ch) := by
  unfold State.voidedContext
  dsimp only
  have hgap : (s.channel ch).KeepsShut
      (if classify s.observer.reference m.index = .resync then ((s.channel ch).closeOutside ch .voidGap).1
      else s.channel ch) := by
    split
    · exact (s.channel ch).closeOutside_keepsShut ch .voidGap
    · exact fun hc => ⟨hc, rfl⟩
  split
  · exact hgap.trans (Channel.closeOutside_keepsShut _ ch .voidSupply)
  · exact hgap

theorem State.observe_keepsShut (payload : List Byte) : s.KeepsShut (s.observe payload) ch := by
  have hchannel : (s.channel ch).KeepsShut ((s.observe payload).channel ch) := by
    unfold State.observe
    split
    · rename_i m _
      by_cases hc : classify s.observer.reference m.index = .duplicate
      · simp only [State.observeSample, hc]
        exact fun hc => ⟨hc, rfl⟩
      · rw [s.channel_observeSample ch m hc]
        exact (State.voidedContext_keepsShut m).trans (Channel.handleFrame_keepsShut _ ch _ _)
    · exact fun hc => ⟨hc, rfl⟩
  obtain ⟨_, _, _, _, _, _, _, heq⟩ := s.observe_frame payload
  exact ⟨by rw [heq], .inr (by rw [heq]), hchannel⟩

theorem State.offerUfq_keepsShut (f : Frame) : s.KeepsShut (s.offerUfq f) ch := by
  unfold State.offerUfq
  split <;> exact .of_eq rfl

theorem State.offerDfq_keepsShut (f : Frame) : s.KeepsShut (s.offerDfq f) ch := by
  unfold State.offerDfq
  split <;> exact .of_eq rfl

theorem State.classifyD_keepsShut (f : Frame) : s.KeepsShut (s.classifyD f) ch := by
  refine State.KeepsShut.trans ?_ (State.offerUfq_keepsShut f)
  split
  · exact State.observe_keepsShut f.payload
  · exact .of_eq rfl

theorem State.loseD_keepsShut : s.KeepsShut s.loseD ch := by
  have hlost : s.KeepsShut { s with dPort := s.dPort.lose s.dfq.length, dfq := [] } ch :=
    ⟨rfl, .inl rfl, fun hc => ⟨hc, rfl⟩⟩
  unfold State.loseD
  dsimp only
  split
  · exact hlost.trans State.fallSilent_keepsShut
  · exact hlost

theorem State.expireLease_keepsShut : s.KeepsShut s.expireLease ch := by
  unfold State.expireLease
  split <;> exact .of_eq rfl

end

/-! Departures to the driver. -/

/-- The frame holds no ENERGIZE for the channel, if it is a COMMAND frame to the driver (R22). -/
def frameSpares (f : Frame) (driver : Byte) (ch : ChannelId) : Prop :=
  f.kind = Frame.commandKind → f.destination = driver → ∀ entries, readCommand f.payload = some entries →
    ∀ e ∈ entries, e.channel = ch → e.action ≠ 1

section
variable (s : State) {ch : ChannelId}

/-- An injected frame holds a RELEASE for each channel that waits for one (R93). -/
theorem State.readCommand_injectedFrame (h : s.injectionOffered = true) :
    readCommand s.injectedFrame.payload =
      some (s.pendingChannels.map fun c => { channel := c, action := 2, argument := 0 }) := by
  have hsub : s.pendingChannels.Sublist allChannels := List.filter_sublist
  refine (readCommand_iff _ _).2 ⟨?_, ?_, ?_, ?_, rfl⟩
  · obtain ⟨c, _, hc⟩ := List.any_eq_true.1 h
    rw [List.length_map]
    exact List.length_pos_of_mem (List.mem_filter.2 ⟨mem_allChannels c, hc⟩)
  · rw [List.length_map]
    exact hsub.length_le
  · rw [List.map_map]
    exact (List.map_id _).symm ▸ nodup_allChannels.sublist hsub
  · simp

/-- A judged frame departs with the entries that the judge leaves (R28, R32). -/
theorem State.readCommand_judgedFrame {f : Frame} {entries : List CommandEntry}
    (h : readCommand f.payload = some entries) :
    readCommand (judgedFrame f entries (s.judgeEntries entries).2).payload =
      some (entries.map s.departingEntry) := by
  obtain ⟨hlow, hhigh, hnodup, haction, _⟩ := (readCommand_iff _ _).1 h
  obtain ⟨_, hjudged, _⟩ := State.judgeEntries_spec entries hnodup s
  have hchannel : ∀ e, (s.departingEntry e).channel = e.channel := fun e => by
    rw [State.departingEntry_eq]
    split <;> rfl
  have hfits : ∀ e ∈ entries, (s.departingEntry e).action < 16 := fun e he => by
    rw [State.departingEntry_eq]
    split
    · norm_num
    · exact haction e he
  rw [hjudged]
  by_cases hsame : entries.map s.departingEntry = entries
  · rw [judgedFrame_same f hsame, h, hsame]
  · rw [judgedFrame_rewritten f hsame]
    refine (readCommand_iff _ _).2 ⟨by simpa using hlow, by simpa using hhigh, ?_, by simpa using hfits, rfl⟩
    simpa [List.map_map, Function.comp_def, hchannel] using hnodup

/-- What a departure on the D-port can put into transmission spares a channel that is not OPEN (R22, R29). -/
theorem State.DSends.spares {s : State} {l : List Frame} {sending : Option Frame} (h : s.DSends l sending)
    (hs : (s.channel ch).disposition ≠ .open_) {f : Frame} (hf : sending = some f) :
    s.dPort.sending = some f ∨ frameSpares f s.active.policy.driverAddress ch := by
  cases h with
  | nothing => exact .inl hf
  | injected hi =>
    cases hf
    refine .inr fun _ _ entries hread e he _ => ?_
    rw [s.readCommand_injectedFrame hi] at hread
    cases hread
    obtain ⟨c, _, rfl⟩ := List.mem_map.1 he
    simp
  | plain g _ hj =>
    cases hf
    refine .inr fun hkind hdestination => absurd hj ?_
    simp [State.judges, hkind, hdestination]
  | judged g entries t _ _ hread ht =>
    cases hf
    refine .inr fun _ _ departing hdeparting e he hech => ?_
    rw [t.readCommand_judgedFrame hread] at hdeparting
    cases hdeparting
    obtain ⟨o, _, rfl⟩ := List.mem_map.1 he
    rw [State.departingEntry_eq] at hech ⊢
    split at hech
    · rename_i hrewritten
      rw [if_pos hrewritten]
      simp
    · rename_i hkept
      rw [if_neg hkept]
      refine fun haction => hkept ⟨haction, ?_⟩
      rw [hech, State.channel_congr ht]
      exact hs

/-- No judged entry energizes a channel that is not OPEN (R29, R30). -/
theorem State.judgedContext_energized (e : CommandEntry) (hs : (s.channel e.channel).disposition ≠ .open_)
    (h : (s.judgedContext e).energized = true) : (s.channel e.channel).energized = true := by
  by_cases h1 : e.action = 1
  · rw [s.judgedContext_rewritten h1 hs] at h
    cases h
  by_cases h2 : e.action = 2
  · rw [s.judgedContext_released h2] at h
    cases h
  rwa [s.judgedContext_other h1 h2] at h

theorem State.departInjection_energized (h : (s.departInjection.channel ch).energized = true) :
    (s.channel ch).energized = true := by
  obtain ⟨channels, heq, hch⟩ := s.departInjection_frame
  have hchannel : s.departInjection.channel ch =
      if (s.channel ch).pendingInjection = true then (s.channel ch).released else s.channel ch := by
    rw [heq]
    exact hch ch
  rw [hchannel] at h
  split at h
  · cases h
  · exact h

theorem State.departJudged_energized {f : Frame} {entries : List CommandEntry}
    (hread : readCommand f.payload = some entries) (hs : (s.channel ch).disposition ≠ .open_)
    (h : ((s.departJudged f entries).channel ch).energized = true) : (s.channel ch).energized = true := by
  obtain ⟨_, _, hnodup, _⟩ := (readCommand_iff _ _).1 hread
  obtain ⟨channels, hjudged, hnamed, hother⟩ := State.judgeEntries_spec entries hnodup s
  have hchannel : (s.departJudged f entries).channel ch = channels[ch.val] := by
    rw [State.departJudged, hjudged]
    rfl
  rw [hchannel] at h
  by_cases hch : ∃ e ∈ entries, e.channel = ch
  · obtain ⟨e, he, rfl⟩ := hch
    rw [hnamed e he] at h
    exact s.judgedContext_energized e hs h
  · rwa [hother ch fun e he hech => hch ⟨e, he, hech⟩] at h

/-- No departure on the D-port energizes a channel that is not OPEN (R22, R29). -/
theorem State.departD_energized (l : List Frame) : ∀ (s : State) (head : Bool),
    (s.channel ch).disposition ≠ .open_ → ((s.departD head l).channel ch).energized = true →
      (s.channel ch).energized = true := by
  induction l with
  | nil =>
    intro s head _ h
    unfold State.departD at h
    dsimp only at h
    split at h
    · exact State.departInjection_energized { s with dfq := [] } h
    · exact h
  | cons f l ih =>
    intro s head hs h
    unfold State.departD at h
    split at h
    · exact State.departInjection_energized { s with dfq := f :: l } h
    · split at h
      · split at h
        · rename_i hread
          exact State.departJudged_energized { s with dfq := l } hread hs h
        · exact ih s.dropMalformed false hs h
      · exact h

theorem State.leaveD_energized (hs : (s.channel ch).disposition ≠ .open_)
    (h : (s.leaveD.channel ch).energized = true) : (s.channel ch).energized = true := by
  unfold State.leaveD at h
  split at h
  · exact s.departInjection_energized h
  · exact State.departD_energized s.dfq s true hs h
  · exact h

end

end Sys2Proof.Machine

/-! SUPPORT. A step never energizes a channel that is not OPEN, and nothing that starts towards the driver in it holds
an ENERGIZE for the channel (R22, R29). -/

namespace Sys2Proof.Machine

section
variable {s t u : State} {ch : ChannelId}

/-! An event with its departures. -/

/-- From `s` to `t` the channel has not become energized, and what the D-port then transmits is `sending`, or spares the
channel. -/
structure State.Spares (s t : State) (ch : ChannelId) (sending : Option Frame) : Prop where
  energized : (t.channel ch).energized = true → (s.channel ch).energized = true
  sends : ∀ f, t.dPort.sending = some f → sending = some f ∨ frameSpares f s.active.policy.driverAddress ch

theorem State.Spares.of_eq (h : (t.channels, t.dPort.sending) = (s.channels, s.dPort.sending)) :
    s.Spares t ch s.dPort.sending := by
  obtain ⟨hchannels, hsending⟩ := by simpa only [Prod.mk.injEq] using h
  refine ⟨fun he => ?_, fun f hf => .inl (hsending ▸ hf)⟩
  rwa [State.channel_congr hchannels] at he

/-- What the arbiters keep while the D-port departs at most once, from a channel that is not OPEN before it. -/
structure State.Guards (s t : State) (ch : ChannelId) : Prop where
  active : t.active = s.active
  spares : s.Spares t ch s.dPort.sending
  shut : t.dStanding = none ∨ (t.channel ch).disposition ≠ .open_

theorem State.Guards.leaveD (h : s.Guards t ch) : s.Guards t.leaveD ch := by
  rcases h.shut with hnone | hshut
  · have hstays : t.leaveD = t := by simp [State.leaveD, hnone]
    rwa [hstays]
  · obtain ⟨sending, _, _, _, _, _, _, _, heq, _, hsends⟩ := t.leaveD_frame
    have hsending : t.leaveD.dPort.sending = sending := by rw [heq]
    have hactive : t.leaveD.active = t.active := by rw [heq]
    refine ⟨hactive.trans h.active, ⟨fun he => h.spares.energized (t.leaveD_energized hshut he), fun f hf => ?_⟩,
      .inl t.leaveD_dStanding⟩
    rcases hsends.spares hshut (hsending.symm.trans hf) with hf | hf
    · exact h.spares.sends f hf
    · exact .inr (h.active ▸ hf)

/-- What touches neither the D-port nor the channels. -/
theorem State.Guards.elsewhere (h : s.Guards t ch)
    (hu : (u.active, u.channels, u.dPort.sending) = (t.active, t.channels, t.dPort.sending))
    (hstanding : u.dStanding = t.dStanding) : s.Guards u ch := by
  obtain ⟨hactive, hchannels, hsending⟩ := by simpa only [Prod.mk.injEq] using hu
  refine ⟨hactive.trans h.active, ⟨fun he => ?_, fun f hf => h.spares.sends f (hsending ▸ hf)⟩, ?_⟩
  · rw [State.channel_congr hchannels] at he
    exact h.spares.energized he
  · rw [hstanding, State.channel_congr hchannels]
    exact h.shut

theorem State.Guards.leaveC (h : s.Guards t ch) : s.Guards t.leaveC ch := by
  refine h.elsewhere ?_ t.leaveC_dSide.1
  obtain ⟨_, _, _, _, _, _, heq, _⟩ := t.leaveC_frame
  rw [heq]

theorem State.Guards.arbitrate (h : s.Guards t ch) : s.Guards t.arbitrate ch :=
  t.arbitrate_induct (fun t => s.Guards t ch) h (fun _ h => h.leaveD) (fun _ h => h.leaveC)
    (fun _ _ h => h.elsewhere rfl rfl) fun t h => h.elsewhere rfl t.select_standing.1

/-- An event that keeps the channel shut, with the arbiters' acts behind it. -/
theorem State.KeepsShut.arbitrate (h : s.KeepsShut u ch) (hs : (s.channel ch).disposition ≠ .open_) :
    s.Spares u.arbitrate ch u.dPort.sending := by
  obtain ⟨hu, henergized⟩ := h.channel hs
  have hguards : u.Guards u ch := ⟨rfl, ⟨id, fun _ => .inl⟩, .inr hu⟩
  obtain ⟨hspared, hsends⟩ := hguards.arbitrate.spares
  exact ⟨fun he => henergized ▸ hspared he, fun f hf => h.active ▸ hsends f hf⟩

/-- What the D-port then transmits, where the event has not freed its transmitter or has freed it. -/
theorem State.Spares.of_kept {sending sending' : Option Frame} (h : s.Spares t ch sending)
    (hk : sending = none ∨ sending = sending') : s.Spares t ch sending' :=
  ⟨h.energized, fun f hf => (h.sends f hf).imp_left fun hsending => by
    rcases hk with hk | hk <;> rw [hk] at hsending
    · cases hsending
    · exact hsending⟩

theorem State.KeepsShut.spares (h : s.KeepsShut u ch) (hs : (s.channel ch).disposition ≠ .open_) :
    s.Spares u.arbitrate ch s.dPort.sending :=
  (h.arbitrate hs).of_kept h.sending

/-- An event that keeps the channel shut and happens under a condition, with the arbiters' acts behind it. -/
theorem State.KeepsShut.spares_ite (h : s.KeepsShut u ch) (hs : (s.channel ch).disposition ≠ .open_) (p : Prop)
    [Decidable p] : s.Spares (if p then u.arbitrate else s) ch s.dPort.sending := by
  split
  · exact h.spares hs
  · exact .of_eq rfl

/-- The departures themselves, as rows of the table (R168 to R171). -/
theorem State.Spares.departure {row : Instr} (hrow : row ∈ departureRows) (h : exec row s = .next t)
    (hs : (s.channel ch).disposition ≠ .open_) : s.Spares t ch s.dPort.sending := by
  have hguards : s.Guards s ch := ⟨rfl, .of_eq rfl, .inr hs⟩
  rcases exec_departure s hrow with ⟨_, heq⟩ | ⟨_, heq⟩ | heq <;> rw [heq] at h <;> cases h
  · exact hguards.leaveD.arbitrate.spares
  · exact hguards.leaveC.arbitrate.spares
  · exact .of_eq rfl

/-! Commands that are no receipt on the C-port. -/

theorem State.receiveD_spares (bytes : List Byte) (hs : (s.channel ch).disposition ≠ .open_) :
    s.Spares (s.receiveD bytes) ch s.dPort.sending := by
  have hcounted : s.KeepsShut s.signOfLife.countReceivedD ch := .of_eq rfl
  unfold State.receiveD
  split
  · exact .of_eq rfl
  · exact .of_eq rfl
  · exact State.KeepsShut.spares (.of_eq rfl) hs
  · exact (hcounted.trans (State.classifyD_keepsShut _)).spares hs

theorem State.coldReset_spares (straps : BitVec 3) : s.Spares (s.coldReset straps) ch s.dPort.sending := by
  refine ⟨fun he => ?_, nofun⟩
  rw [State.coldReset_channel] at he
  cases he

/-- Every command but a receipt on the C-port spares a channel that is not OPEN. -/
theorem exec_spares {i : Instr} (hr : i.request? = none) (hc : ∀ bytes, i ≠ .cPortReceipt bytes)
    (h : exec i s = .next t) (hs : (s.channel ch).disposition ≠ .open_) :
    s.Spares t ch (if i = .transmissionComplete .dPort then none else s.dPort.sending) := by
  cases i with
  | coldReset straps => cases h; exact State.coldReset_spares straps
  | linkLossD => cases h; exact State.loseD_keepsShut.spares_ite hs _
  | linkLossC =>
    have hlost : s.KeepsShut s.loseC ch := .of_eq rfl
    cases h
    exact hlost.spares_ite hs _
  | linkReturn port => cases h; cases port <;> exact State.KeepsShut.spares (.of_eq rfl) hs
  | cPortReceipt bytes => exact absurd rfl (hc bytes)
  | dPortReceipt bytes =>
    cases h
    split
    · exact s.receiveD_spares bytes hs
    · exact .of_eq rfl
  | transmissionComplete port =>
    cases h
    cases port with
    | cPort =>
      have hdone : s.KeepsShut { s with cPort := s.cPort.complete } ch := .of_eq rfl
      exact hdone.spares_ite hs _
    | dPort =>
      have hdone : s.KeepsShut { s with dPort := s.dPort.complete } ch := ⟨rfl, .inl rfl, fun hc => ⟨hc, rfl⟩⟩
      dsimp only
      split
      · exact hdone.arbitrate hs
      · rename_i hidle
        exact (State.Spares.of_eq rfl).of_kept (.inl (by simpa using hidle))
  | silenceExpiry => cases h; exact State.fallSilent_keepsShut.spares_ite hs _
  | retransmitExpiry =>
    have hexpired : s.KeepsShut s.expireRetransmit ch := .of_eq rfl
    cases h
    exact hexpired.spares_ite hs _
  | leaseExpiry => cases h; exact State.expireLease_keepsShut.spares_ite hs _
  | judgedDeparture | dPortDeparture | injectedDeparture | responseDeparture | reportDeparture | ufqDeparture =>
    exact State.Spares.departure (by decide) h hs
  | _ => simp [Instr.request?] at hr

end

end Sys2Proof.Machine

/-! SUPPORT. A request leaves the D-port's side as it is, so that a departure that waits for its row goes on waiting
(R168, R169), and the statement on channels that are not OPEN (R22, R29). -/

namespace Sys2Proof.Machine

section
variable {s t u : State} {commits : Prop}

/-! What a request leaves of the D-port's side. -/

/-- The D-port's side stays as it is: the queue, the port, the flags of the channels; and the tables in force, unless
the request is a COMMIT. -/
structure State.DQuiet (s u : State) (commits : Prop) : Prop where
  side : (u.ownAddress, u.dfq, u.dSelected, u.pending, u.dPort.up, u.dPort.sending) =
    (s.ownAddress, s.dfq, s.dSelected, s.pending, s.dPort.up, s.dPort.sending)
  flags : ∀ ch : ChannelId, (u.channel ch).energized = (s.channel ch).energized ∧
    (u.channel ch).pendingInjection = (s.channel ch).pendingInjection
  active : ¬commits → u.active = s.active

theorem State.DQuiet.of_eq
    (h : (u.ownAddress, u.dfq, u.dSelected, u.pending, u.dPort.up, u.dPort.sending, u.channels, u.active) =
      (s.ownAddress, s.dfq, s.dSelected, s.pending, s.dPort.up, s.dPort.sending, s.channels, s.active)) :
    s.DQuiet u commits := by
  simp only [Prod.mk.injEq] at h
  obtain ⟨ho, hdfq, hselected, hpending, hup, hsending, hchannels, hactive⟩ := h
  exact ⟨by simp only [ho, hdfq, hselected, hpending, hup, hsending],
    fun ch => by rw [State.channel_congr hchannels]; exact ⟨rfl, rfl⟩, fun _ => hactive⟩

theorem State.DQuiet.trans (h : s.DQuiet t commits) (h' : t.DQuiet u commits) : s.DQuiet u commits :=
  ⟨h'.side.trans h.side,
    fun ch => ⟨(h'.flags ch).1.trans (h.flags ch).1, (h'.flags ch).2.trans (h.flags ch).2⟩,
    fun hc => (h'.active hc).trans (h.active hc)⟩

theorem State.underSession_dQuiet (source : Byte) (act : Session → Reply)
    (h : ∀ held, s.DQuiet (act held).state commits) : s.DQuiet (s.underSession source act).state commits := by
  rcases s.underSession_cases source act with ⟨_, heq⟩ | ⟨_, _, _, heq⟩ | ⟨held, _, _, heq⟩ <;> rw [heq]
  · exact .of_eq rfl
  · exact .of_eq rfl
  · exact h held

theorem State.unlock_dQuiet (ch : ChannelId) : s.DQuiet (s.unlock ch) commits := by
  unfold State.unlock
  split
  · refine ⟨rfl, fun d => ?_, fun _ => rfl⟩
    rw [State.channel_hand, State.channel_setChannel]
    split
    · rename_i hd
      rw [hd]
      exact ⟨rfl, rfl⟩
    · exact ⟨rfl, rfl⟩
  · exact .of_eq rfl

theorem State.restart_dQuiet : s.DQuiet s.restart commits := by
  obtain ⟨channels, heq, hch⟩ := State.restartChannels_spec { s with session := none }
  have hchannel : ∀ ch, s.restart.channel ch = (s.channel ch).restart := fun ch => by
    unfold State.restart
    rw [heq]
    exact hch ch
  have hside : (s.restart.ownAddress, s.restart.dfq, s.restart.dSelected, s.restart.pending, s.restart.dPort.up,
      s.restart.dPort.sending) = (s.ownAddress, s.dfq, s.dSelected, s.pending, s.dPort.up, s.dPort.sending) := by
    unfold State.restart
    rw [heq]
  refine ⟨hside, fun ch => ?_, fun _ => ?_⟩
  · rw [hchannel]
    exact ⟨rfl, rfl⟩
  · unfold State.restart
    rw [heq]

/-- Every request leaves the D-port's side as it is (R146 to R160). -/
theorem State.perform_dQuiet (source : Byte) (r : Request) :
    s.DQuiet (s.perform source r).state (r = .commit) := by
  have hsame : ∀ {t : State}, t = s → s.DQuiet t (r = .commit) := fun h => h ▸ .of_eq rfl
  cases r with
  | identify => exact .of_eq rfl
  | readChannel channel =>
    change s.DQuiet (s.doReadChannel channel).state _
    unfold State.doReadChannel
    split <;> exact .of_eq rfl
  | readProfile bank slot =>
    refine hsame (s.readBank_state source bank _ fun b => ?_)
    split <;> rfl
  | readMap bank => exact hsame (s.readBank_state source bank _ fun b => rfl)
  | readPolicy bank => exact hsame (s.readBank_state source bank _ fun b => rfl)
  | readCounters group clear =>
    change s.DQuiet (if clear then s.clearGroup group else s) _
    split
    · cases group <;> exact .of_eq rfl
    · exact .of_eq rfl
  | openSession =>
    change s.DQuiet (s.doOpenSession source).state _
    unfold State.doOpenSession
    split
    · exact .of_eq rfl
    · split <;> exact .of_eq rfl
  | writeProfile slot p =>
    refine State.underSession_dQuiet source _ fun held => ?_
    split
    · exact .of_eq rfl
    · split <;> exact .of_eq rfl
  | clearProfile slot =>
    refine State.underSession_dQuiet source _ fun held => ?_
    split <;> exact .of_eq rfl
  | writeMap entries =>
    refine State.underSession_dQuiet source _ fun held => ?_
    split <;> exact .of_eq rfl
  | writePolicy policy =>
    refine State.underSession_dQuiet source _ fun held => ?_
    split <;> exact .of_eq rfl
  | commit =>
    refine State.underSession_dQuiet source _ fun held => ?_
    split
    · exact .of_eq rfl
    · exact ⟨rfl, fun _ => ⟨rfl, rfl⟩, fun hc => absurd rfl hc⟩
  | closeSession => exact State.underSession_dQuiet source _ fun _ => .of_eq rfl
  | unlockChannel channel =>
    refine State.underSession_dQuiet source _ fun held => ?_
    split
    · exact .of_eq rfl
    · exact State.unlock_dQuiet _
  | ackReports number =>
    change s.DQuiet (s.doAckReports source number).state _
    unfold State.doAckReports
    dsimp only
    split
    · exact .of_eq rfl
    · split <;> exact .of_eq rfl
  | warmRestart => exact State.underSession_dQuiet source _ fun _ => State.restart_dQuiet

theorem State.executeRequest_dQuiet (source tag kind : Byte) (request : Option Request) :
    s.DQuiet (s.executeRequest source tag kind request) (request = some .commit) := by
  have hcounted : s.DQuiet { s with monitor := { s.monitor with requestExecuted := s.monitor.requestExecuted + 1 } }
      (request = some .commit) := .of_eq rfl
  have hfinish : ∀ r : Reply, r.state.DQuiet (r.finish source tag kind) (request = some .commit) := fun r => by
    rw [Reply.finish_eq]
    exact .of_eq rfl
  refine (hcounted.trans ?_).trans (hfinish _)
  cases request with
  | none => exact .of_eq rfl
  | some r =>
    rw [Option.some.injEq]
    exact State.perform_dQuiet source r

/-- A delivered request leaves the D-port's side as it is (R140). -/
theorem State.manage_dQuiet (source tag kind : Byte) (request : Option Request) :
    s.DQuiet (s.manage source tag kind request) (request = some .commit) := by
  rcases s.manage_cases source tag kind request with ⟨e, _, heq⟩ | ⟨_, _, heq⟩ | ⟨_, _, heq⟩ <;> rw [heq]
  · unfold State.replay
    split <;> exact .of_eq rfl
  · exact .of_eq rfl
  · exact State.executeRequest_dQuiet source tag kind request

theorem State.receivedRequest_dQuiet (source tag kind : Byte) (request : Option Request) :
    s.DQuiet (s.countReceivedC.manage source tag kind request) (request = some .commit) := by
  have hcounted : s.DQuiet s.countReceivedC (request = some .commit) := .of_eq rfl
  exact hcounted.trans (State.manage_dQuiet source tag kind request)

/-! The selection behind a request. -/

theorem State.DQuiet.injectionOffered (h : s.DQuiet u commits) : u.injectionOffered = s.injectionOffered := by
  simp only [State.injectionOffered, fun ch => (h.flags ch).2]

/-- The selection at the D-port stands as before (R168). -/
theorem State.DQuiet.dStanding (h : s.DQuiet u commits) : u.dStanding = s.dStanding := by
  obtain ⟨_, hdfq, hselected, _, hup, hsending⟩ := by simpa only [Prod.mk.injEq] using h.side
  have hwaits : u.dWaits = s.dWaits := by
    funext source
    cases source
    · exact h.injectionOffered
    · simp only [State.dWaits, hdfq]
  have hready : u.dPort.ready = s.dPort.ready := by rw [Port.ready, hup, hsending, ← Port.ready]
  have hselect : u.dSelect = s.dSelect := by rw [State.dSelect, h.injectionOffered, hdfq, ← State.dSelect]
  rw [State.dStanding, hready, hselected, hwaits, hselect, ← State.dStanding]

theorem State.dRow_injected_iff (s : State) :
    s.dRow = some .injectedDeparture ↔ s.dStanding = some .injection := by
  refine ⟨fun h => ?_, fun h => (s.dRow_iff _).2 (.inl ⟨h, rfl⟩)⟩
  rcases (s.dRow_iff _).1 h with ⟨hs, _⟩ | ⟨_, f, _, hrow⟩
  · exact hs
  · split at hrow <;> cases hrow

/-- A departure that waits for its row goes on waiting; a COMMIT is met by an injection alone, whose row does not depend
on the driver's address. -/
theorem State.DQuiet.dHeld (h : s.DQuiet u commits) (hs : s.dHeld = true)
    (hc : commits → s.dRow = some .injectedDeparture) : u.dHeld = true := by
  obtain ⟨ho, hdfq, _, hpending, _⟩ := by simpa only [Prod.mk.injEq] using h.side
  have hrow : u.dRow = s.dRow := by
    by_cases hcommits : commits
    · have hs := hc hcommits
      rw [hs, State.dRow_injected_iff, h.dStanding]
      exact s.dRow_injected_iff.1 hs
    · have hjudges : ∀ f, u.judges f = s.judges f := fun f => by simp only [State.judges, h.active hcommits]
      simp only [State.dRow, h.dStanding, hdfq, hjudges]
  have hmeets : ∀ row c, u.meets row c = s.meets row c := fun row c => by
    rw [Bool.eq_iff_iff, State.meets_iff, State.meets_iff]
    simp only [State.requestIn_iff, ho]
  rw [State.dHeld_iff] at hs ⊢
  rw [hrow, hpending]
  simpa only [hmeets] using hs

/-- A command that comes to the front while a departure waits for its row behind it is one that meets the departure, and
the departure goes on waiting. -/
theorem State.dHeld_next {i : Instr} {rest : List Instr} (hp : s.pending = i :: rest) (hi : i ∉ departureRows)
    (h : s.dHeld = true) : State.dHeld { s with pending := rest } = true ∧
      ∃ row, s.dRow = some row ∧ s.meets row i = true := by
  obtain ⟨row, claims, behind, hrow, hpending, hclaims⟩ := s.dHeld_iff.1 h
  rw [hp] at hpending
  cases claims with
  | nil =>
    obtain ⟨rfl, _⟩ := List.cons.inj hpending
    exact absurd (s.dRow_mem hrow) hi
  | cons c claims =>
    obtain ⟨rfl, hrest⟩ := List.cons.inj hpending
    obtain ⟨hfront, hclaims⟩ := List.forall_mem_cons.1 hclaims
    exact ⟨(State.dHeld_iff _).2 ⟨row, claims, behind, hrow, hrest, hclaims⟩, row, hrow, hfront.resolve_left hi⟩

/-- A COMMIT meets an injection alone (R97, R161). -/
theorem State.meets_commit {row i : Instr} (h : s.meets row i = true) (hi : s.requestIn i = some .commit) :
    row = .injectedDeparture := by
  rcases (s.meets_iff row i).1 h with ⟨_, ⟨bytes, rfl⟩ | ⟨channel, hchannel⟩⟩ | ⟨hrow, _⟩
  · simp [State.requestIn, Instr.request?] at hi
  · rw [hi] at hchannel
    cases hchannel
  · exact hrow

/-- Where nothing leaves the D-port, the arbiters leave its side alone. -/
theorem State.arbitrate_dSide (h : s.dStanding = none ∨ s.dHeld = true) :
    s.arbitrate.channels = s.channels ∧ s.arbitrate.dPort = s.dPort := by
  have hleave : s.leaveC.channels = s.channels ∧ s.leaveC.dPort = s.dPort := by
    obtain ⟨_, _, _, _, _, _, heq, _⟩ := s.leaveC_frame
    rw [heq]
    exact ⟨rfl, rfl⟩
  rw [s.arbitrate_dStays h, State.select_channels, State.select_dPort, State.concludeC]
  split
  · exact ⟨rfl, rfl⟩
  · exact hleave

/-- A request executed with the arbiters at rest before it brings no departure to the driver about (R29, R37, R97). -/
theorem State.request_spares {i : Instr} {rest : List Instr} {request : Option Request} {ch : ChannelId}
    (ha : s.Arbitrated) (hp : s.pending = i :: rest) (hi : i ∉ departureRows) (hr : s.requestIn i = request)
    (h : State.DQuiet { s with pending := rest } u (request = some .commit)) :
    s.Spares u.arbitrate ch s.dPort.sending := by
  obtain ⟨_, _, hheld, _⟩ := ha
  have hquiet : u.dStanding = none ∨ u.dHeld = true := by
    by_cases hs : s.dStanding = none
    · exact .inl (h.dStanding.trans hs)
    · obtain ⟨hnext, row, hrow, hmeets⟩ := State.dHeld_next hp hi (hheld hs)
      refine .inr (h.dHeld hnext fun hcommit => ?_)
      rw [← State.meets_commit hmeets (hr.trans hcommit)]
      exact hrow
  obtain ⟨hchannels, hdPort⟩ := u.arbitrate_dSide hquiet
  obtain ⟨_, _, _, _, _, hsending⟩ := by simpa only [Prod.mk.injEq] using h.side
  refine ⟨fun he => ?_, fun f hf => .inl ?_⟩
  · rw [State.channel_congr hchannels] at he
    exact (h.flags ch).1 ▸ he
  · rw [← hsending, ← hdPort]
    exact hf

/-! The obligation. -/

/-- A receipt on the C-port spares a channel that is not OPEN: a request executed behind the arbiters' rest, or a frame
that waits in the DFQ for its judgement. -/
theorem State.receiveC_spares {bytes : List Byte} {rest : List Instr} {ch : ChannelId} (ha : s.Arbitrated)
    (hp : s.pending = .cPortReceipt bytes :: rest) (hs : (s.channel ch).disposition ≠ .open_) :
    s.Spares (State.receiveC { s with pending := rest } bytes) ch s.dPort.sending := by
  unfold State.receiveC
  split
  · exact .of_eq rfl
  · exact .of_eq rfl
  · exact .of_eq rfl
  · rename_i f hf
    have hcounted : State.KeepsShut s (State.countReceivedC { s with pending := rest }) ch := .of_eq rfl
    unfold State.classifyC
    split
    · rename_i hdestination
      split
      · rename_i hkind
        have hrequest : s.requestIn (.cPortReceipt bytes) = decodeRequest f.payload := by
          simp only [State.requestIn, hf]
          exact if_pos ⟨hdestination, hkind⟩
        exact State.request_spares ha hp (by simp [departureRows]) hrequest
          (State.receivedRequest_dQuiet f.source f.sequence _ _)
      · exact State.KeepsShut.spares (.of_eq rfl) hs
    · exact (hcounted.trans (State.offerDfq_keepsShut f)).spares hs

/-- A request row spares a channel that is not OPEN. -/
theorem State.receiveRequest_spares {i : Instr} {source tag : Byte} {r : Request} {rest : List Instr} {ch : ChannelId}
    (ha : s.Arbitrated) (hp : s.pending = i :: rest) (hr : i.request? = some (source, tag, r)) :
    s.Spares (State.receiveRequest { s with pending := rest } source tag r) ch s.dPort.sending := by
  have hi : i ∉ departureRows := fun h => by
    simp only [departureRows, List.mem_cons, List.not_mem_nil, or_false] at h
    rcases h with rfl | rfl | rfl | rfl | rfl | rfl <;> cases hr
  unfold State.receiveRequest
  split
  · exact State.request_spares ha hp hi ((s.requestIn_iff i r).2 (.inl ⟨source, tag, hr⟩))
      (State.receivedRequest_dQuiet source tag _ _)
  · exact .of_eq rfl

/-- A step from a state with the arbiters at rest spares a channel that is not OPEN. -/
theorem step_spares {ch : ChannelId} (ha : s.Arbitrated) (h : step s = .next t)
    (hs : (s.channel ch).disposition ≠ .open_) :
    s.Spares t ch
      (if s.pending.head? = some (.transmissionComplete .dPort) then none else s.dPort.sending) := by
  unfold step at h
  split at h
  · rename_i hp
    rw [hp]
    rcases s.idle_cases with heq | ⟨i, hi, n, heq⟩ <;> rw [heq] at h
    · cases h
      exact .of_eq rfl
    · have hspared : State.Spares { s with freeCount := n } t ch
          (if i = .transmissionComplete .dPort then none else s.dPort.sending) := by
        rcases s.due_mem hi with rfl | rfl | rfl <;> exact exec_spares rfl (by simp) h hs
      refine State.Spares.mk hspared.energized ?_
      rcases s.due_mem hi with rfl | rfl | rfl <;> exact hspared.sends
  · rename_i i rest hp
    rw [hp, List.head?_cons]
    cases hr : i.request? with
    | some held =>
      obtain ⟨source, tag, r⟩ := held
      rw [exec_request _ hr] at h
      cases h
      have hi : i ≠ .transmissionComplete .dPort := fun hi => by rw [hi] at hr; cases hr
      rw [if_neg (by simpa using hi)]
      exact State.receiveRequest_spares ha hp hr
    | none =>
      by_cases hc : ∃ bytes, i = .cPortReceipt bytes
      · obtain ⟨bytes, rfl⟩ := hc
        cases h
        split
        · exact State.receiveC_spares ha hp hs
        · exact .of_eq rfl
      · simp only [Option.some.injEq]
        have hspared : State.Spares { s with pending := rest } t ch _ :=
          exec_spares hr (fun bytes hi => hc ⟨bytes, hi⟩) h hs
        exact ⟨hspared.energized, hspared.sends⟩

/-- Settles O48: the judge rewrites or releases for a channel that is not OPEN, and no event that opens it starts a
departure in the same step. -/
theorem blockedChannelIsNeverEnergized : Obligations.BlockedChannelIsNeverEnergized := by
  intro s t ch ha h hs
  obtain ⟨henergized, hsends⟩ := step_spares ha h hs
  refine ⟨henergized, fun f entries hf hstarts hkind hdestination hread e he hech => ?_⟩
  refine (hsends f hf).resolve_left (fun hold => ?_) hkind hdestination entries hread e he hech
  split at hold
  · cases hold
  · rename_i hcontinues
    exact hstarts.elim (fun hne => hne hold) hcontinues

end

end Sys2Proof.Machine

/-! SUPPORT. The sample stream (R41, R100 to R112): an episode opens only where the observer trusts the stream, and
whatever ends the trust has closed every episode. -/

namespace Sys2Proof.Machine

/-! The stream's state. -/

section
variable {s t : State}

/-- The stream stays sound where the observer and the D-port's link stay, and an episode that is open was open before or
opens under a stream that is trusted (R41). -/
theorem State.StreamSound.of_kept (hs : s.StreamSound)
    (h : (t.observer, t.dPort.up) = (s.observer, s.dPort.up))
    (he : ∀ ch : ChannelId, (t.channel ch).episode.isSome → (s.channel ch).episode.isSome ∨ s.observer.Trusts) :
    t.StreamSound := by
  obtain ⟨hobserver, hup⟩ := by simpa only [Prod.mk.injEq] using h
  obtain ⟨hsound, htrusts, hdown⟩ := hs
  simp only [State.StreamSound, hobserver, hup]
  exact ⟨hsound, fun ch hch => (he ch hch).elim (htrusts ch) id, hdown⟩

/-- The observer, the D-port's link and the channels are all that the stream's state reads. -/
theorem State.StreamSound.of_eq (hs : s.StreamSound)
    (h : (t.observer, t.dPort.up, t.channels) = (s.observer, s.dPort.up, s.channels)) : t.StreamSound := by
  obtain ⟨hobserver, hup, hchannels⟩ := by simpa only [Prod.mk.injEq] using h
  refine hs.of_kept (by rw [hobserver, hup]) fun ch hch => .inl ?_
  rwa [State.channel_congr hchannels] at hch

/-- Where no episode is open, a SILENT observer without a reference is a sound stream (R100). -/
theorem State.StreamSound.of_silent (hsilent : s.observer.activity = .silent) (href : s.observer.reference = none)
    (htimer : s.observer.silenceTimer = none) (he : ∀ ch : ChannelId, (s.channel ch).episode = none) :
    s.StreamSound := by
  refine ⟨⟨fun _ => ⟨href, htimer⟩, fun hactive => ?_⟩, fun ch hch => ?_, fun _ => hsilent⟩
  · rw [hsilent] at hactive
    cases hactive
  · rw [he ch] at hch
    cases hch

/-! Departures. -/

theorem State.StreamSound.departInjection (hs : s.StreamSound) : s.departInjection.StreamSound := by
  obtain ⟨channels, heq, hch⟩ := s.departInjection_frame
  rw [heq]
  refine hs.of_kept rfl fun ch h => .inl ?_
  have hchannel : (State.channel { s with channels } ch).episode = (s.channel ch).episode := by
    rw [State.channel, hch ch]
    split <;> rfl
  exact hchannel ▸ h

/-- An episode opens at an index only where the stream is trusted (R41). -/
theorem Observer.trusts_of_openingIndex {o : Observer} (h : o.openingIndex.isSome) : o.Trusts := by
  unfold Observer.openingIndex at h
  split at h
  · rename_i htrusted
    exact ⟨htrusted.1, htrusted.2, h⟩
  · cases h

/-- A judged entry leaves an episode only where it stood before, or where the stream is trusted (R29, R30, R41). -/
theorem State.judgedContext_episode (s : State) (e : CommandEntry) (h : (s.judgedContext e).episode.isSome) :
    (s.channel e.channel).episode.isSome ∨ s.observer.Trusts := by
  by_cases h1 : e.action = 1
  · by_cases ho : (s.channel e.channel).disposition = .open_
    · refine .inr (Observer.trusts_of_openingIndex ?_)
      rw [s.judgedContext_admitted h1 ho, Channel.energize_eq] at h
      cases s.snapshotFor e.channel <;> cases hopening : s.observer.openingIndex <;> simp_all
    · rw [s.judgedContext_rewritten h1 ho] at h
      exact .inl h
  by_cases h2 : e.action = 2
  · rw [s.judgedContext_released h2] at h
    cases h
  rw [s.judgedContext_other h1 h2] at h
  exact .inl h

theorem State.StreamSound.judgeEntry (hs : s.StreamSound) (e : CommandEntry) : (s.judgeEntry e).1.StreamSound := by
  rw [State.judgeEntry_eq]
  refine hs.of_kept rfl fun ch h => ?_
  have hchannel := s.channel_setChannel e.channel ch (s.judgedContext e)
  by_cases hch : ch = e.channel
  · rw [if_pos hch] at hchannel
    rw [hch]
    exact s.judgedContext_episode e (hchannel ▸ h)
  · rw [if_neg hch] at hchannel
    exact .inl (hchannel ▸ h)

theorem State.StreamSound.judgeEntries (l : List CommandEntry) :
    ∀ {s : State}, s.StreamSound → (s.judgeEntries l).1.StreamSound := by
  induction l with
  | nil => exact id
  | cons e l ih => exact fun hs => ih (hs.judgeEntry e)

theorem State.StreamSound.departD (l : List Frame) :
    ∀ {s : State} (head : Bool), s.StreamSound → (s.departD head l).StreamSound := by
  induction l with
  | nil =>
    intro s head hs
    have hdrained : State.StreamSound { s with dfq := [] } := hs.of_eq rfl
    unfold State.departD
    dsimp only
    split
    · exact hdrained.departInjection
    · exact hdrained
  | cons f l ih =>
    intro s head hs
    have htaken : ∀ dfq, State.StreamSound { s with dfq } := fun _ => hs.of_eq rfl
    unfold State.departD
    split
    · exact (htaken (f :: l)).departInjection
    · split
      · split
        · rename_i entries _
          exact (State.StreamSound.judgeEntries entries (htaken l)).of_eq rfl
        · exact ih (s := s.dropMalformed) false (hs.of_eq rfl)
      · exact hs.of_eq rfl

theorem State.StreamSound.leaveD (hs : s.StreamSound) : s.leaveD.StreamSound := by
  unfold State.leaveD
  split
  · exact hs.departInjection
  · exact hs.departD s.dfq true
  · exact hs

theorem State.StreamSound.leaveC (hs : s.StreamSound) : s.leaveC.StreamSound := by
  obtain ⟨_, _, _, _, _, _, heq, _⟩ := s.leaveC_frame
  rw [heq]
  exact hs.of_eq rfl

theorem State.StreamSound.arbitrate (hs : s.StreamSound) : s.arbitrate.StreamSound :=
  s.arbitrate_induct State.StreamSound hs (fun _ h => h.leaveD) (fun _ h => h.leaveC) (fun _ _ h => h.of_eq rfl)
    (fun _ h => h.of_eq rfl)

/-- An event that happens under a condition, with the arbiters' acts behind it. -/
theorem State.StreamSound.arbitrate_ite (hs : s.StreamSound) (p : Prop) [Decidable p] (ht : p → t.StreamSound) :
    (if p then t.arbitrate else s).StreamSound := by
  split
  · rename_i hp
    exact (ht hp).arbitrate
  · exact hs

/-! The driver's silence. -/

/-- The silence leaves no episode, no reference and no timer (R103). -/
theorem State.ChannelsSound.fallSilent (hc : s.ChannelsSound) : s.fallSilent.StreamSound := by
  obtain ⟨channels, heq, hch⟩ := s.fallSilent_spec
  rw [heq]
  refine .of_silent rfl rfl rfl fun ch => ?_
  rw [State.channel, hch ch]
  exact (s.channel ch).closeOutside_episode ch .voidSilent (hc ch)

/-- A D-port that goes DOWN leaves the driver SILENT (R112). -/
theorem State.StreamSound.loseD (hs : s.StreamSound) (hc : s.ChannelsSound) : s.loseD.StreamSound := by
  have hlost : State.ChannelsSound { s with dPort := s.dPort.lose s.dfq.length, dfq := [] } := hc
  unfold State.loseD
  dsimp only
  split
  · exact hlost.fallSilent
  · rename_i hactive
    obtain ⟨hsound, htrusts, _⟩ := hs
    refine ⟨hsound, htrusts, fun _ => ?_⟩
    cases hactivity : s.observer.activity with
    | silent => rfl
    | active => exact absurd hactivity hactive

/-! Sample frames. -/

/-- A frame on an UP port makes the driver ACTIVE, its timer running, and takes no trust away (R101). -/
theorem State.StreamSound.signOfLife (hs : s.StreamSound) (hup : s.dPort.up = true) : s.signOfLife.StreamSound := by
  obtain ⟨_, htrusts, _⟩ := hs
  refine ⟨⟨nofun, fun _ => rfl⟩, fun ch hch => ?_, fun hdown => ?_⟩
  · obtain ⟨_, hsupply, href⟩ := htrusts ch hch
    exact ⟨rfl, hsupply, href⟩
  · exact absurd (hup.symm.trans hdown) (by decide)

/-- An episode that stands behind the voids of an accepted frame stood before it, in a frame that does not take the
supply LOW (R79, R110). -/
theorem State.voidedContext_episode {m : Sample} {ch : ChannelId} (hc : (s.channel ch).Sound)
    (h : (s.voidedContext m ch).episode ≠ none) :
    (s.channel ch).episode.isSome ∧ ¬s.SupplyFalls m.supply := by
  cases he : (s.channel ch).episode with
  | none =>
    have htracking : (s.channel ch).tracking = none := by simp [Channel.tracking, he]
    simp [State.voidedContext, Channel.closeOutside_none _ ch _ htracking, he] at h
  | some e =>
    obtain ⟨sn, _, hsn, _⟩ := hc.tracking (by simp [he])
    obtain ⟨n, episode, hvoided, hepisode⟩ := State.voidedContext_eq s m ch hsn
    rw [hvoided] at h
    exact ⟨rfl, fun hfalls => h (hepisode.2 (.inr (.inr hfalls)))⟩

theorem State.trackFrame_observer (s : State) (m : Sample) : (s.trackFrame m).observer = s.observer := by
  obtain ⟨_, heq, _⟩ := s.trackFrame_spec m
  rw [heq]

/-- A supply that is OK and does not fall stays OK (R109, R110). -/
theorem State.evaluateSupply_stays {supply : Nat} (hok : s.observer.supply = .ok) (h : ¬s.SupplyFalls supply) :
    s.evaluateSupply supply = s := by
  simp only [State.evaluateSupply, hok]
  exact if_neg fun hlow => h ⟨hok, hlow⟩

/-- An accepted frame sets the reference; a supply that is OK and does not fall stays OK (R107 to R110). -/
theorem State.observeSample_observer (s : State) (m : Sample)
    (h : classify s.observer.reference m.index ≠ .duplicate) :
    (s.observeSample m).observer.reference = some m.index ∧
      (s.observer.supply = .ok → ¬s.SupplyFalls m.supply → (s.observeSample m).observer.supply = .ok) := by
  have haccepted : ∀ t : State, (t.acceptSample m).observer.reference = some m.index ∧
      (t.observer.supply = .ok → ¬t.SupplyFalls m.supply → (t.acceptSample m).observer.supply = .ok) := by
    intro t
    obtain ⟨_, _, _, heq⟩ := t.acceptSample_frame m
    refine ⟨by rw [heq], fun hok hstays => ?_⟩
    have hkept : State.evaluateSupply { t with observer := { t.observer with reference := some m.index } } m.supply =
        { t with observer := { t.observer with reference := some m.index } } :=
      State.evaluateSupply_stays hok hstays
    rw [State.acceptSample, State.trackFrame_observer, hkept]
    exact hok
  unfold State.observeSample
  cases hclass : classify s.observer.reference m.index with
  | duplicate => exact absurd hclass h
  | resync =>
    have hresynced := haccepted s.resync
    rwa [State.SupplyFalls, s.resync_observer, s.resync_active] at hresynced
  | absent => exact haccepted s
  | advance => exact haccepted s

/-- A SAMPLE payload keeps the stream sound: an episode stands only behind a frame that orders no void, on a supply that
stays OK (R79, R105 to R110). -/
theorem State.StreamSound.observe (hs : s.StreamSound) (hc : s.ChannelsSound) (hactive : s.observer.activity = .active)
    (payload : List Byte) : (s.observe payload).StreamSound := by
  obtain ⟨reference, supply, _, _, _, _, _, hframe⟩ := s.observe_frame payload
  have hobserver : (s.observe payload).observer = { s.observer with reference, supply } := by rw [hframe]
  have hup : (s.observe payload).dPort.up = s.dPort.up := by rw [hframe]
  cases hm : readSample payload with
  | none => exact hs.of_eq (by simp [State.observe, hm])
  | some m =>
    have hobserved : s.observe payload = s.observeSample m := by simp [State.observe, hm]
    by_cases hclass : classify s.observer.reference m.index = .duplicate
    · exact hs.of_eq (by simp [hobserved, State.observeSample, hclass])
    · obtain ⟨⟨_, htimer⟩, htrusts, hdown⟩ := hs
      obtain ⟨href, hsupply⟩ := s.observeSample_observer m hclass
      have hactive' : (s.observe payload).observer.activity = .active := by rw [hobserver]; exact hactive
      refine ⟨⟨fun hsilent => ?_, fun _ => ?_⟩, fun ch hch => ?_, fun hd => ?_⟩
      · rw [hactive'] at hsilent
        cases hsilent
      · rw [hobserver]
        exact htimer hactive
      · rw [hobserved, s.channel_observeSample ch m hclass] at hch
        have hvoided : (s.voidedContext m ch).episode ≠ none := fun hn => by
          rw [Channel.handleFrame_episode _ ch _ _ hn] at hch
          cases hch
        obtain ⟨hopen, hstays⟩ := State.voidedContext_episode (hc ch) hvoided
        obtain ⟨_, hok, _⟩ := htrusts ch hopen
        rw [hobserved] at hactive' ⊢
        exact ⟨hactive', hsupply hok hstays, by rw [href]; rfl⟩
      · have hsilent := hdown (hup ▸ hd)
        rw [hactive] at hsilent
        cases hsilent

theorem State.StreamSound.offerUfq (hs : s.StreamSound) (f : Frame) : (s.offerUfq f).StreamSound := by
  unfold State.offerUfq
  split <;> exact hs.of_eq rfl

theorem State.StreamSound.receiveD (hs : s.StreamSound) (hc : s.ChannelsSound) (hup : s.dPort.up = true)
    (bytes : List Byte) : (s.receiveD bytes).StreamSound := by
  have halive := hs.signOfLife hup
  unfold State.receiveD
  split
  · exact hs.of_eq rfl
  · exact hs.of_eq rfl
  · exact State.StreamSound.arbitrate (halive.of_eq rfl)
  · have hcounted : s.signOfLife.countReceivedD.StreamSound := halive.of_eq rfl
    have hsound : s.signOfLife.countReceivedD.ChannelsSound := hc
    refine State.StreamSound.arbitrate (State.StreamSound.offerUfq ?_ _)
    split
    · exact hcounted.observe hsound rfl _
    · exact hcounted

/-! Management requests. -/

/-- What a request can make of the observer, the D-port's link and the channels: nothing, an unlock (R35), or a warm
restart (R160). -/
inductive State.Managed (s : State) : State → Prop
  | elsewhere {t : State} (h : (t.observer, t.dPort.up, t.channels) = (s.observer, s.dPort.up, s.channels)) :
      s.Managed t
  | unlocked (ch : ChannelId) : s.Managed (s.unlock ch)
  | restarted : s.Managed s.restart

theorem State.underSession_managed (source : Byte) (act : Session → Reply)
    (h : ∀ held, s.Managed (act held).state) : s.Managed (s.underSession source act).state := by
  rcases s.underSession_cases source act with ⟨_, heq⟩ | ⟨_, _, _, heq⟩ | ⟨held, _, _, heq⟩ <;> rw [heq]
  · exact .elsewhere rfl
  · exact .elsewhere rfl
  · exact h held

theorem State.perform_managed (s : State) (source : Byte) (r : Request) : s.Managed (s.perform source r).state := by
  have hsame : ∀ {t : State}, t = s → s.Managed t := fun h => h ▸ .elsewhere rfl
  cases r with
  | identify => exact .elsewhere rfl
  | readChannel channel =>
    change s.Managed (s.doReadChannel channel).state
    unfold State.doReadChannel
    split <;> exact .elsewhere rfl
  | readProfile bank slot =>
    refine hsame (s.readBank_state source bank _ fun b => ?_)
    split <;> rfl
  | readMap bank | readPolicy bank => exact hsame (s.readBank_state source bank _ fun b => rfl)
  | readCounters group clear => cases clear <;> cases group <;> exact .elsewhere rfl
  | openSession =>
    change s.Managed (s.doOpenSession source).state
    unfold State.doOpenSession
    split
    · exact .elsewhere rfl
    · split <;> exact .elsewhere rfl
  | writeProfile slot p =>
    refine State.underSession_managed source _ fun held => ?_
    split
    · exact .elsewhere rfl
    · split <;> exact .elsewhere rfl
  | clearProfile _ | writeMap _ | writePolicy _ | commit =>
    refine State.underSession_managed source _ fun held => ?_
    split <;> exact .elsewhere rfl
  | closeSession => exact State.underSession_managed source _ fun _ => .elsewhere rfl
  | unlockChannel channel =>
    refine State.underSession_managed source _ fun held => ?_
    split
    · exact .elsewhere rfl
    · exact .unlocked _
  | ackReports number =>
    change s.Managed (s.doAckReports source number).state
    unfold State.doAckReports
    dsimp only
    split
    · exact .elsewhere rfl
    · split <;> exact .elsewhere rfl
  | warmRestart => exact State.underSession_managed source _ fun _ => .restarted

theorem State.StreamSound.unlock (hs : s.StreamSound) (ch : ChannelId) : (s.unlock ch).StreamSound := by
  unfold State.unlock
  split
  · refine hs.of_kept rfl fun d hd => .inl ?_
    rw [State.channel_hand, State.channel_setChannel] at hd
    split at hd
    · rename_i hdch
      exact hdch ▸ hd
    · exact hd
  · exact hs

/-- A warm restart discards every episode and puts the observer back to its reset values (R80, R113). -/
theorem State.restart_streamSound (s : State) : s.restart.StreamSound := by
  obtain ⟨channels, heq, hch⟩ := State.restartChannels_spec { s with session := none }
  unfold State.restart
  rw [heq]
  refine .of_silent rfl rfl rfl fun ch => ?_
  rw [State.channel, hch ch]
  rfl

theorem State.StreamSound.perform (hs : s.StreamSound) (source : Byte) (r : Request) :
    (s.perform source r).state.StreamSound := by
  have hmanaged := s.perform_managed source r
  generalize (s.perform source r).state = t at hmanaged ⊢
  cases hmanaged with
  | elsewhere h => exact hs.of_eq h
  | unlocked ch => exact hs.unlock ch
  | restarted => exact s.restart_streamSound

theorem State.StreamSound.executeRequest (hs : s.StreamSound) (source tag kind : Byte) (request : Option Request) :
    (s.executeRequest source tag kind request).StreamSound := by
  have hcounted : State.StreamSound
      { s with monitor := { s.monitor with requestExecuted := s.monitor.requestExecuted + 1 } } := hs.of_eq rfl
  have hfinish : ∀ r : Reply, r.state.StreamSound → (r.finish source tag kind).StreamSound := fun r hr => by
    rw [Reply.finish_eq]
    exact hr.of_eq rfl
  refine hfinish _ ?_
  cases request with
  | none => exact hcounted
  | some r => exact hcounted.perform source r

theorem State.StreamSound.manage (hs : s.StreamSound) (source tag kind : Byte) (request : Option Request) :
    (s.manage source tag kind request).StreamSound := by
  rcases s.manage_cases source tag kind request with ⟨e, _, heq⟩ | ⟨_, _, heq⟩ | ⟨_, _, heq⟩ <;> rw [heq]
  · unfold State.replay
    split <;> exact hs.of_eq rfl
  · exact hs.of_eq rfl
  · exact hs.executeRequest source tag kind request

theorem State.StreamSound.receiveRequest (hs : s.StreamSound) (source tag : Byte) (r : Request) :
    (s.receiveRequest source tag r).StreamSound := by
  have hcounted : s.countReceivedC.StreamSound := hs.of_eq rfl
  exact hs.arbitrate_ite _ fun _ => hcounted.manage source tag _ _

/-! Commands and steps. -/

theorem State.StreamSound.receiveC (hs : s.StreamSound) (bytes : List Byte) : (s.receiveC bytes).StreamSound := by
  have hcounted : s.countReceivedC.StreamSound := hs.of_eq rfl
  unfold State.receiveC
  split
  · exact hs.of_eq rfl
  · exact hs.of_eq rfl
  · exact hs.of_eq rfl
  · refine State.StreamSound.arbitrate ?_
    unfold State.classifyC
    split
    · split
      · exact hcounted.manage _ _ _ _
      · exact hs.of_eq rfl
    · unfold State.offerDfq
      split <;> exact hs.of_eq rfl

theorem State.coldReset_streamSound (s : State) (straps : BitVec 3) : (s.coldReset straps).StreamSound :=
  .of_silent rfl rfl rfl fun ch => by rw [State.coldReset_channel]; rfl

theorem State.StreamSound.expireLease (hs : s.StreamSound) : s.expireLease.StreamSound := by
  unfold State.expireLease
  split
  · exact hs.of_eq rfl
  · exact hs

theorem State.StreamSound.tick (hs : s.StreamSound) : s.tick.StreamSound := by
  obtain ⟨⟨hsilent, hactive⟩, htrusts, hdown⟩ := hs
  refine ⟨⟨fun h => ?_, fun h => ?_⟩, htrusts, hdown⟩
  · obtain ⟨href, htimer⟩ := hsilent h
    exact ⟨href, by simp [htimer]⟩
  · simpa using hactive h

theorem State.StreamSound.linkReturn (hs : s.StreamSound) :
    State.StreamSound { s with dPort := { s.dPort with up := true } } := by
  obtain ⟨hsound, htrusts, _⟩ := hs
  exact ⟨hsound, htrusts, nofun⟩

theorem State.StreamSound.departure (hs : s.StreamSound) {row : Instr} (hrow : row ∈ departureRows)
    (h : Machine.exec row s = .next t) : t.StreamSound := by
  rcases exec_departure s hrow with ⟨_, heq⟩ | ⟨_, heq⟩ | heq <;> rw [heq] at h <;> cases h
  · exact hs.leaveD.arbitrate
  · exact hs.leaveC.arbitrate
  · exact hs

/-- Every command keeps the stream sound, from sound channels. -/
theorem State.StreamSound.exec (hs : s.StreamSound) (hc : s.ChannelsSound) (i : Instr)
    (h : Machine.exec i s = .next t) : t.StreamSound := by
  cases hr : i.request? with
  | some held =>
    obtain ⟨source, tag, r⟩ := held
    rw [exec_request s hr] at h
    cases h
    exact hs.receiveRequest source tag r
  | none =>
    cases i with
    | coldReset straps => cases h; exact s.coldReset_streamSound straps
    | linkLossD => cases h; exact hs.arbitrate_ite _ fun _ => hs.loseD hc
    | linkLossC => cases h; exact hs.arbitrate_ite _ fun _ => hs.of_eq rfl
    | linkReturn port =>
      cases h
      cases port with
      | cPort => exact State.StreamSound.arbitrate (hs.of_eq rfl)
      | dPort => exact hs.linkReturn.arbitrate
    | cPortReceipt bytes =>
      cases h
      split
      · exact hs.receiveC bytes
      · exact hs
    | dPortReceipt bytes =>
      cases h
      split
      · rename_i hup
        exact hs.receiveD hc hup bytes
      · exact hs
    | transmissionComplete port =>
      cases h
      cases port <;> exact hs.arbitrate_ite _ fun _ => hs.of_eq rfl
    | silenceExpiry => cases h; exact hs.arbitrate_ite _ fun _ => hc.fallSilent
    | retransmitExpiry => cases h; exact hs.arbitrate_ite _ fun _ => hs.of_eq rfl
    | leaseExpiry => cases h; exact hs.arbitrate_ite _ fun _ => hs.expireLease
    | judgedDeparture | dPortDeparture | injectedDeparture | responseDeparture | reportDeparture | ufqDeparture =>
      exact hs.departure (by decide) h
    | _ => simp [Instr.request?] at hr

/-- Settles O51: an episode opens only under a stream that is trusted, and the silence, a falling supply and a resync
leave none open, so that every command and tick keeps the stream sound. -/
theorem stepKeepsStreamSound : Obligations.StepKeepsStreamSound := by
  intro s t hc hs h
  unfold step at h
  split at h
  · rcases s.idle_cases with heq | ⟨i, _, n, heq⟩ <;> rw [heq] at h
    · cases h
      exact hs.tick
    · have hcounted : State.StreamSound { s with freeCount := n } := hs.of_eq rfl
      exact hcounted.exec hc i h
  · rename_i i rest _
    have htaken : State.StreamSound { s with pending := rest } := hs.of_eq rfl
    exact htaken.exec hc i h

end

end Sys2Proof.Machine

/-! SUPPORT. One episode and one accepted frame: the steps of R46, the phases (R52 to R60) and the deadlines (R61). -/

namespace Sys2Proof.Machine

section
variable (e : Episode) (p : Profile) (x : Half)

/-! The steps of a frame. -/

theorem SampleEntry.trips_iff (entry : SampleEntry) : entry.trips p = true ↔ (p.ocLevel : Int) ≤ entry.current := by
  simp [SampleEntry.trips]

/-- A frame without an entry for the channel: the gap, then the deadlines (R46, R50). -/
theorem Episode.handle_absent : e.handle p x none =
    if p.gapLimit < (e.count x false).gap then .closes (e.count x false) .voidGap none
    else (e.count x false).checkDeadline p := rfl

/-- An entry at or above oc_level trips (R49). -/
theorem Episode.handle_trips {entry : SampleEntry} (h : (p.ocLevel : Int) ≤ entry.current) :
    e.handle p x (some entry) = .trips (e.count x true) :=
  if_pos ((entry.trips_iff p).2 h)

/-- An entry below oc_level: the gap, the levels, the phase, then the deadlines (R46, R50, R51, R61). -/
theorem Episode.handle_present {entry : SampleEntry} (h : entry.current < (p.ocLevel : Int)) :
    e.handle p x (some entry) =
      if p.gapLimit < (e.count x true).gap then .closes (e.count x true) .voidGap none
      else
        match ((e.count x true).trackLevels p x entry.current).stepPhase p x entry with
        | .stays e => e.checkDeadline p
        | step => step :=
  if_neg fun ht => absurd ((entry.trips_iff p).1 ht) (not_le.2 h)

/-! The deadlines. -/

theorem Episode.lateMotion_iff : e.lateMotion p = true ↔
    ∃ m, p.motion = some m ∧ (e.phase = .ramp ∨ e.phase = .dip) ∧ m.reactionMax < e.elapsed := by
  unfold Episode.lateMotion
  cases e.phase <;> cases p.motion <;> simp

/-- At most one deadline closes the episode, in the order of R61. -/
theorem Episode.checkDeadline_eq : e.checkDeadline p =
    if p.openDeadline ≤ e.elapsed ∧ e.openSeen = false then .closes e .openLoad none
    else if p.hitDeadline ≤ e.elapsed ∧ e.hit = none then .closes e .hitMissed none
    else if e.lateMotion p = true then .closes e .noMotion none
    else .stays e := by
  unfold Episode.checkDeadline Episode.deadline
  split_ifs <;> rfl

/-- Settles O57: a frame comes to the gap, the levels, the phase and the deadlines one after another, and the deadlines
to the first that has passed. -/
theorem deadlinesCloseInOrder : Obligations.DeadlinesCloseInOrder := by
  intro e p x deadlines
  have hdeadlines : ∀ e' : Episode, e'.checkDeadline p = deadlines e' := fun e' => by
    rw [Episode.checkDeadline_eq]
    cases hm : p.motion <;> simp [deadlines, hm, Episode.lateMotion_iff]
  refine ⟨⟨fun hgap => ?_, fun hgap => ?_⟩, fun entry => ⟨e.handle_trips p x, fun hoc hgap => ?_, fun hoc hgap =>
    ⟨fun e' hstep => ?_, fun e' outcome r hstep => ?_⟩⟩⟩
  · rw [e.handle_absent, if_pos hgap]
  · rw [e.handle_absent, if_neg (not_lt.2 hgap), hdeadlines]
  · rw [e.handle_present p x hoc, if_pos hgap]
  · have htracked : ((e.count x true).trackLevels p x entry.current).stepPhase p x entry = .stays e' := by
      simpa [Episode.trackLevels, Episode.count] using hstep
    rw [e.handle_present p x hoc, if_neg (not_lt.2 hgap), htracked, ← hdeadlines]
  · have htracked : ((e.count x true).trackLevels p x entry.current).stepPhase p x entry = .closes e' outcome r := by
      simpa [Episode.trackLevels, Episode.count] using hstep
    rw [e.handle_present p x hoc, if_neg (not_lt.2 hgap), htracked]

/-! The episode behind a frame. -/

/-- The episode that a step leaves open, or closes with. -/
def EpisodeStep.episode : EpisodeStep → Episode
  | .stays e => e
  | .closes e _ _ => e
  | .trips e => e

/-- From `e` to `e'` the counts and the command index stay, a hit and open seen stay once set, and the phase does not go
back (R51, R52). -/
structure Episode.Forward (e e' : Episode) : Prop where
  counts : (e'.cmdIndex, e'.elapsed, e'.seen, e'.gap) = (e.cmdIndex, e.elapsed, e.seen, e.gap)
  openSeen : e.openSeen = true → e'.openSeen = true
  hit : ∀ h, e.hit = some h → e'.hit = some h
  phase : e.phase.code.toNat ≤ e'.phase.code.toNat

section
variable {e p x} {e' e'' : Episode}

theorem Episode.Forward.trans (h : e.Forward e') (h' : e'.Forward e'') : e.Forward e'' :=
  ⟨h'.counts.trans h.counts, h'.openSeen ∘ h.openSeen, fun i hi => h'.hit i (h.hit i hi), h.phase.trans h'.phase⟩

/-- A step of the phase writes the phase and what is its own. -/
theorem Episode.Forward.of_eq
    (h : (e'.cmdIndex, e'.elapsed, e'.seen, e'.gap, e'.openSeen, e'.hit) =
      (e.cmdIndex, e.elapsed, e.seen, e.gap, e.openSeen, e.hit))
    (hp : e.phase.code.toNat ≤ e'.phase.code.toNat) : e.Forward e' := by
  simp only [Prod.mk.injEq] at h
  obtain ⟨hcmd, helapsed, hseen, hgap, hopen, hhit⟩ := h
  exact ⟨by rw [hcmd, helapsed, hseen, hgap], fun h => hopen.trans h, fun i hi => hhit.trans hi, hp⟩

theorem Episode.trackLevels_forward (current : Int) : e.Forward (e.trackLevels p x current) := by
  refine ⟨rfl, fun h => by simp [Episode.trackLevels, h], fun i hi => ?_, le_rfl⟩
  simp [Episode.trackLevels, hi]

theorem Phase.code_le_measure (phase : Phase) : phase.code.toNat ≤ Phase.measure.code.toNat := by
  cases phase <;> decide

theorem Episode.enterMeasure_forward : e.Forward (e.enterMeasure p).episode := by
  unfold Episode.enterMeasure
  split
  · exact .of_eq rfl e.phase.code_le_measure
  · exact .of_eq rfl le_rfl

/-- The step of the phase goes forward (R52). -/
theorem Episode.stepPhase_forward (entry : SampleEntry) : e.Forward (e.stepPhase p x entry).episode := by
  have hstays : e.Forward e := .of_eq rfl le_rfl
  unfold Episode.stepPhase
  cases hphase : e.phase with
  | ramp =>
    cases p.motion with
    | none => exact hstays
    | some m =>
      dsimp only
      unfold Episode.stepRamp
      dsimp only
      split
      · exact .of_eq rfl (by simp [hphase, EpisodeStep.episode, Phase.code])
      · exact .of_eq rfl le_rfl
  | dip =>
    cases p.motion with
    | none => exact hstays
    | some m =>
      dsimp only
      unfold Episode.stepDip
      dsimp only
      split
      · split
        · exact .of_eq rfl le_rfl
        · exact .of_eq rfl (by simp [hphase, EpisodeStep.episode, Phase.code])
      · exact .of_eq rfl le_rfl
  | climb =>
    dsimp only
    unfold Episode.stepClimb
    split
    · exact hstays
    · split
      · exact .of_eq rfl (by simp [hphase, EpisodeStep.episode, Phase.code])
      · exact Episode.enterMeasure_forward
  | settle =>
    have hcounted : e.Forward { e with settleCount := e.settleCount + 1 } := .of_eq rfl le_rfl
    dsimp only
    unfold Episode.stepSettle
    dsimp only
    split
    · exact hcounted.trans Episode.enterMeasure_forward
    · exact hcounted
  | measure =>
    cases p.measure with
    | none => exact hstays
    | some g =>
      dsimp only
      unfold Episode.stepMeasure
      dsimp only
      split <;> exact .of_eq rfl le_rfl

theorem Episode.checkDeadline_episode : (e.checkDeadline p).episode = e := by
  unfold Episode.checkDeadline
  split <;> rfl

/-- Behind the counts of step 1 a frame takes the episode forward (R46). -/
theorem Episode.handle_forward (entry : Option SampleEntry) :
    (e.count x entry.isSome).Forward (e.handle p x entry).episode := by
  have hstays : ∀ e : Episode, e.Forward e := fun _ => .of_eq rfl le_rfl
  cases entry with
  | none =>
    rw [Episode.handle_absent]
    split
    · exact hstays _
    · rw [Episode.checkDeadline_episode]
      exact hstays _
  | some entry =>
    by_cases hoc : (p.ocLevel : Int) ≤ entry.current
    · rw [e.handle_trips p x hoc]
      exact hstays _
    · rw [e.handle_present p x (not_le.1 hoc)]
      split
      · exact hstays _
      · have hstep := (Episode.trackLevels_forward (p := p) (x := x) entry.current).trans
          (Episode.stepPhase_forward (e := (e.count x true).trackLevels p x entry.current) (p := p) (x := x) entry)
        split
        · rename_i e' hstays
          rw [Episode.checkDeadline_episode]
          rwa [hstays] at hstep
        · exact hstep

end

/-- Settles O59: step 1 sets the counts, and what follows it takes the episode forward. -/
theorem episodeCountsAndMovesForward : Obligations.EpisodeCountsAndMovesForward := by
  intro e e' p x entry h
  have hepisode : (e.handle p x entry).episode = e' := by
    rcases h with h | ⟨o, r, h⟩ | h <;> rw [h] <;> rfl
  obtain ⟨hcounts, hopen, hhit, hphase⟩ := hepisode ▸ Episode.handle_forward (e := e) (p := p) (x := x) entry
  simp only [Prod.mk.injEq] at hcounts
  obtain ⟨hcmd, helapsed, hseen, hgap⟩ := hcounts
  refine ⟨hcmd, helapsed, ?_, ?_, hopen, hhit, hphase⟩
  · rw [hseen]
    cases entry <;> rfl
  · rw [hgap, helapsed, hseen]
    rfl

/-! The phases. -/

section
variable {e : Episode} {p : Profile} {x : Half} {entry : SampleEntry}

theorem Episode.stepPhase_ramp {m : MotionGroup} (hp : e.phase = .ramp) (hm : p.motion = some m) :
    e.stepPhase p x entry = e.stepRamp m x entry.current := by
  simp [Episode.stepPhase, hp, hm]

theorem Episode.stepPhase_dip {m : MotionGroup} (hp : e.phase = .dip) (hm : p.motion = some m) :
    e.stepPhase p x entry = e.stepDip m x entry.current := by
  simp [Episode.stepPhase, hp, hm]

theorem Episode.stepPhase_climb (hp : e.phase = .climb) : e.stepPhase p x entry = e.stepClimb p := by
  simp [Episode.stepPhase, hp]

theorem Episode.stepPhase_settle (hp : e.phase = .settle) : e.stepPhase p x entry = e.stepSettle p := by
  simp [Episode.stepPhase, hp]

theorem Episode.stepPhase_measure {g : MeasureGroup} (hp : e.phase = .measure) (hg : p.measure = some g) :
    e.stepPhase p x entry = e.stepMeasure g entry := by
  simp [Episode.stepPhase, hp, hg]

theorem Episode.enterMeasure_some (h : p.measure ≠ none) :
    e.enterMeasure p = .stays { e with phase := .measure, sumCurrent := 0, sumVoltage := 0, measureCount := 0 } :=
  if_pos (Option.isSome_iff_ne_none.2 h)

theorem Episode.enterMeasure_none (h : p.measure = none) : e.enterMeasure p = .closes e .pass none := by
  simp [Episode.enterMeasure, h]

/-- The step of DIP at a minimum and a peak: the valley is confirmed at valley_rise above the minimum, and checked
(R55, R56). -/
theorem Episode.stepDip_eq {m : MotionGroup} {held peak bottom : Mark} {current : Int} (hmin : e.runningMin = some held)
    (hpeak : e.peak = some peak) (hb : bottom = if current < held.current then ⟨x, current⟩ else held) :
    e.stepDip m x current =
      if bottom.current + m.valleyRise ≤ current then
        (motionFault m (periods e.cmdIndex bottom.index) (periods peak.index bottom.index)).elim
          (.stays { e with runningMin := some bottom, valley := some bottom, phase := .climb })
          fun outcome => .closes { e with runningMin := some bottom, valley := some bottom } outcome none
      else .stays { e with runningMin := some bottom } := by
  have hnew : newMin e.runningMin x current = bottom := by rw [hmin, hb]; rfl
  simp only [Episode.stepDip, hnew, Episode.reaction?, Episode.travel?, hpeak, Option.map_some, Option.getD_some]
  cases motionFault m (periods e.cmdIndex bottom.index) (periods peak.index bottom.index) <;> rfl

/-- The entry that completes the window closes the episode by the resistance of the sums (R59, R60, R73). -/
theorem Episode.stepMeasure_closes {g : MeasureGroup} (h : g.window ≤ e.measureCount + 1) : e.stepMeasure g entry =
    .closes
      { e with
        sumCurrent := e.sumCurrent + entry.current
        sumVoltage := e.sumVoltage + entry.voltage
        measureCount := e.measureCount + 1 }
      (judgeResistance g (resistance? (e.sumCurrent + entry.current) (e.sumVoltage + entry.voltage)))
      (resistance? (e.sumCurrent + entry.current) (e.sumVoltage + entry.voltage)) :=
  if_pos h

theorem resistance?_of_nonpos {sumCurrent : Int} {sumVoltage : Nat} (h : sumCurrent ≤ 0) :
    resistance? sumCurrent sumVoltage = none := if_pos h

theorem resistance?_of_pos {sumCurrent : Int} {sumVoltage : Nat} (h : 0 < sumCurrent) :
    resistance? sumCurrent sumVoltage = some (1000 * sumVoltage / sumCurrent.toNat) := if_neg (not_le.2 h)

end

/-- Settles O58: each phase's step, at each side of its boundaries. -/
theorem phasesConfirmAndComplete : Obligations.PhasesConfirmAndComplete := by
  refine ⟨fun e p m x entry hm => ⟨fun top htop hp => ?_, fun held peak hmin hpeak hp => ?_⟩, fun e p x entry => ?_⟩
  · have hnew : newMax e.runningMax x entry.current = top := by
      rcases htop with ⟨hnone, rfl⟩ | ⟨held, hsome, rfl⟩
      · rw [hnone]; rfl
      · rw [hsome]; rfl
    rw [Episode.stepPhase_ramp hp hm, Episode.stepRamp, hnew]
    exact ⟨fun hpeak => if_pos hpeak, fun hbelow => if_neg (not_le.2 hbelow)⟩
  · intro bottom reaction travel confirmed
    rw [Episode.stepPhase_dip hp hm, Episode.stepDip_eq hmin hpeak (bottom := bottom) rfl]
    refine ⟨fun hbelow => if_neg (not_le.2 hbelow), fun hvalley => ?_⟩
    rw [if_pos hvalley]
    have hfault : motionFault m (periods e.cmdIndex bottom.index) (periods peak.index bottom.index) =
        if reaction < m.reactionMin then some .earlyMotion else if travel < m.travelMin then some .travelShort
        else if m.travelMax < travel then some .travelLong else none := rfl
    rw [hfault]
    refine ⟨fun hearly => ?_, fun hr hshort => ?_, fun hr hlow hlong => ?_, fun hr hlow hhigh => ?_⟩
    · rw [if_pos hearly, Option.elim_some]
    · rw [if_neg (not_lt.2 hr), if_pos hshort, Option.elim_some]
    · rw [if_neg (not_lt.2 hr), if_neg (not_lt.2 hlow), if_pos hlong, Option.elim_some]
    · rw [if_neg (not_lt.2 hr), if_neg (not_lt.2 hlow), if_neg (not_lt.2 hhigh), Option.elim_none]
  · intro measuring
    refine ⟨fun hp => ?_, fun hp => ?_, fun g hp hg hopen => ?_, fun g hp hg hfull => ?_⟩
    · rw [Episode.stepPhase_climb hp, Episode.stepClimb]
      refine ⟨fun hhit => if_pos (by simp [hhit]), fun hhit hsettle => ?_, fun hhit hsettle hmeasure => ?_,
        fun hhit hsettle hmeasure => ?_⟩ <;> rw [if_neg (by simpa using hhit)]
      · rw [if_pos hsettle]
      · rw [if_neg (by omega), Episode.enterMeasure_some hmeasure]
      · rw [if_neg (by omega), Episode.enterMeasure_none hmeasure]
    · intro counted
      rw [Episode.stepPhase_settle hp, Episode.stepSettle]
      refine ⟨fun hbelow => if_neg (not_le.2 hbelow), fun hdone hmeasure => ?_, fun hdone hmeasure => ?_⟩
      · exact (if_pos hdone).trans (Episode.enterMeasure_some hmeasure)
      · exact (if_pos hdone).trans (Episode.enterMeasure_none hmeasure)
    · rw [Episode.stepPhase_measure hp hg, Episode.stepMeasure]
      exact if_neg (not_le.2 hopen)
    · intro sumCurrent sumVoltage summed r
      have hstep : e.stepPhase p x entry =
          .closes summed (judgeResistance g (resistance? sumCurrent sumVoltage)) (resistance? sumCurrent sumVoltage) :=
        (Episode.stepPhase_measure hp hg).trans (Episode.stepMeasure_closes hfull)
      refine ⟨fun hsum => ?_, fun hsum => ?_⟩
      · rw [hstep, resistance?_of_nonpos hsum]
        rfl
      · have hsome : resistance? sumCurrent sumVoltage = some r := resistance?_of_pos hsum
        rw [hstep, hsome]
        refine ⟨fun hlow => ?_, fun hmin hhigh => ?_, fun hmin hmax => ?_⟩
        · simp [judgeResistance, hlow]
        · simp [judgeResistance, not_lt.2 hmin, hhigh]
        · simp [judgeResistance, not_lt.2 hmin, not_lt.2 hmax]

end

end Sys2Proof.Machine

/-! SUPPORT. The closure of an episode: the counters, the lock and the VERDICT by the outcome's class (R66 to R71, R75,
R76). -/

namespace Sys2Proof.Machine

/-! The classes of the outcomes. -/

theorem EpisodeOutcome.pass_iff (o : EpisodeOutcome) : o.outcomeClass = .pass ↔ o = .pass := by
  cases o <;> simp [EpisodeOutcome.outcomeClass]

theorem EpisodeOutcome.fail_iff (o : EpisodeOutcome) : o.outcomeClass = .fail ↔ o ∈
    [EpisodeOutcome.noMotion, .earlyMotion, .travelShort, .travelLong, .hitMissed, .openLoad, .overcurrent, .resLow,
      .resHigh] := by
  cases o <;> simp [EpisodeOutcome.outcomeClass]

theorem EpisodeOutcome.neutral_iff (o : EpisodeOutcome) : o.outcomeClass = .neutral ↔ o ∈
    [EpisodeOutcome.releasedEarly, .superseded, .voidGap, .voidSupply, .voidSilent] := by
  cases o <;> simp [EpisodeOutcome.outcomeClass]

section
variable (c : Channel) (ch : ChannelId) (sn : Snapshot) (e : Episode) (outcome : EpisodeOutcome) (r : Option Nat)

/-! The closing steps. -/

/-- The valley of a VERDICT stands with its reaction and travel, which the peak gives (R56, R76). -/
theorem verdictOf_eq : verdictOf c ch sn e outcome r =
    { channel := ch, outcome, profileIndex := sn.index, generation := sn.generation, cmdIndex := e.cmdIndex
      elapsed := e.elapsed, gap := e.gap, failCount := c.failCount, peak := e.peak
      valley := e.peak.bind fun peak => e.valley.map fun valley =>
        ⟨valley, periods e.cmdIndex valley.index, periods peak.index valley.index⟩
      hit := e.hit, resistance := r } := by
  cases hpeak : e.peak <;> cases hvalley : e.valley <;>
    simp [verdictOf, Episode.reaction?, Episode.travel?, hpeak, hvalley]

/-- A channel locks where it is not LOCKED and a lock_after other than 0 is reached (R70). -/
theorem Channel.locks_eq : c.locks sn =
    decide (sn.profile.lockAfter ≠ 0 ∧ sn.profile.lockAfter ≤ c.failCount ∧ c.disposition ≠ .locked) := by
  rw [Bool.eq_iff_iff, decide_eq_true_iff]
  simp [Channel.locks, and_assoc]

/-- The lock decision: LOCKED, the injection pending where the channel is energized, and the record (R70, R71). -/
theorem Channel.decideLock_eq : c.decideLock ch sn =
    ({ c with
        disposition := if c.locks sn then .locked else c.disposition
        pendingInjection := c.pendingInjection || (c.locks sn && c.energized) },
      if c.locks sn then [.locked ch c.failCount sn.index sn.generation] else []) := by
  rcases c.decideLock_cases ch sn with ⟨hlocks, heq⟩ | ⟨hlocks, heq⟩ <;> simp [heq, hlocks]

/-- A closure with outcome PASS (R67, R68, R69). -/
theorem Channel.close_pass (h : outcome.outcomeClass = .pass) : c.close ch sn e outcome r =
    ({ c with passed := c.passed + 1, failCount := 0, episode := none },
      [.verdict (verdictOf { c with failCount := 0 } ch sn e outcome r)]) := by
  simp [Channel.close, h, Channel.account, verdictOf]

/-- A closure with a neutral outcome touches no other counter (R67, R68). -/
theorem Channel.close_neutral (h : outcome.outcomeClass = .neutral) : c.close ch sn e outcome r =
    ({ c with neutral := c.neutral + 1, episode := none }, [.verdict (verdictOf c ch sn e outcome r)]) := by
  simp [Channel.close, h, Channel.account, verdictOf]

/-- A closure with a fail outcome: the counters, then the lock decision, with LOCKED behind the VERDICT (R67 to R71). -/
theorem Channel.close_fail (h : outcome.outcomeClass = .fail) : c.close ch sn e outcome r =
    let failed := { c with failed := c.failed + 1, failCount := min 15 (c.failCount + 1) }
    ({ (failed.decideLock ch sn).1 with episode := none },
      .verdict (verdictOf failed ch sn e outcome r) :: (failed.decideLock ch sn).2) := by
  simp [Channel.close, h, Channel.account]

/-- Settles O19: the closing steps by the class of the outcome, and the three ends of an accepted frame. -/
theorem episodesCloseAndAreAccounted : Obligations.EpisodesCloseAndAreAccounted := by
  intro c ch sn e hs he closed
  have hclose : ∀ (c : Channel) (e : Episode) (outcome : EpisodeOutcome) (r : Option Nat),
      c.close ch sn e outcome r = closed c e outcome r := by
    intro c e outcome r
    simp only [closed, ← EpisodeOutcome.pass_iff, ← EpisodeOutcome.fail_iff, ← EpisodeOutcome.neutral_iff]
    cases hk : outcome.outcomeClass with
    | pass =>
      rw [c.close_pass ch sn e outcome r hk, verdictOf_eq]
      cases e.peak <;> cases e.valley <;> simp [periods]
    | fail =>
      rw [c.close_fail ch sn e outcome r hk]
      simp only [verdictOf_eq, Channel.decideLock_eq, Channel.locks_eq]
      cases e.peak <;> cases e.valley <;> simp [periods]
    | neutral =>
      rw [c.close_neutral ch sn e outcome r hk, verdictOf_eq]
      cases e.peak <;> cases e.valley <;> simp [periods]
  have htracking := c.tracking_some hs he
  refine ⟨fun x entry e' h => ?_, fun x entry e' outcome r h => ?_, fun x entry e' h => ?_, fun outcome => ?_⟩
  · simp [Channel.handleFrame, htracking, h]
  · simp [Channel.handleFrame, htracking, h, hclose]
  · simp [Channel.handleFrame, htracking, h, hclose, Channel.trip]
  · simp [Channel.closeOutside, htracking, hclose]

end

end Sys2Proof.Machine

/-! SUPPORT. The bytes of a channel's context (10.5, R184), and the statement on IDENTIFY and READ_CHANNEL (R152,
R153). -/

namespace Sys2Proof.Machine

/-! Layouts. -/

/-- Each flag counts its weight (R184). -/
theorem flagBits_eq (b₀ b₁ b₂ b₃ : Bool) : flagBits b₀ b₁ b₂ b₃ =
    BitVec.ofNat 8 ((if b₀ then 1 else 0) + (if b₁ then 2 else 0) + (if b₂ then 4 else 0) + (if b₃ then 8 else 0)) := by
  revert b₀ b₁ b₂ b₃; decide

/-- An absent index is written as 0 (R184). -/
theorem halfOrZero_eq (h : Option Half) : halfOrZero h = bytes2 ((h.map fun index => index.toNat).getD 0) := by
  cases h <;> rfl

/-- The fields of an open episode, 16 bytes (10.5). -/
theorem episodeBytes_some (e : Episode) : episodeBytes (some e) =
    [e.phase.code] ++ bytes2 e.cmdIndex.toNat ++ bytes2 e.elapsed ++ bytes2 e.seen ++ bytes2 e.gap ++
      [BitVec.ofNat 8
        ((if e.peak.isSome then 1 else 0) + (if e.valley.isSome then 2 else 0) + (if e.hit.isSome then 4 else 0))] ++
      bytes2 ((e.peak.map fun mark => mark.index.toNat).getD 0) ++
      bytes2 ((e.valley.map fun mark => mark.index.toNat).getD 0) ++
      bytes2 ((e.hit.map fun index => index.toNat).getD 0) := by
  simp only [episodeBytes, Episode.presence, flagBits_eq, halfOrZero_eq, Option.map_map]
  rfl

theorem episodeBytes_length (e : Option Episode) : (episodeBytes e).length = 16 := by
  cases e with
  | none => rfl
  | some e => rw [episodeBytes_some]; rfl

theorem snapshotBytes_length (sn : Option Snapshot) : (snapshotBytes sn).length = 3 := by
  cases sn <;> rfl

/-- READ_CHANNEL returns 43 bytes (10.5). -/
theorem Channel.bytes_length (c : Channel) (ch : ChannelId) : (c.bytes ch).length = 43 := by
  simp [Channel.bytes, snapshotBytes_length, episodeBytes_length, countBytes, bytes4]

/-! The obligation. -/

/-- Settles O30: what is read is laid out as 10.5 says, and a channel number in range names its channel. -/
theorem identifyAndReadChannelAnswer : Obligations.IdentifyAndReadChannelAnswer := by
  intro s source tag hd
  refine ⟨?_, fun channel => ⟨fun ch hch => ?_, fun hch => ?_⟩⟩
  · have hp : s.counted.perform source .identify = s.counted.answer .ok
        ([0x4C#8, 0x16#8, 0x01#8, s.ownAddress] ++ halfBytes s.generation ++ s.holderBytes ++
          [s.report.sender.code]) := rfl
    rw [exec_answered rfl rfl hd hp, State.holderBytes]
    cases s.session <;> cases s.report.sender <;> rfl
  · intro c bit context
    have hp : s.counted.perform source (.readChannel channel) = s.counted.answer .ok (c.bytes ch) := by
      rw [State.perform, State.doReadChannel, channelOf_eq hch]
      rfl
    have hcontext : c.bytes ch = context := by
      have hdisposition : c.disposition.code =
          match c.disposition with
          | .open_ => 0x00
          | .tripped => 0x01
          | .locked => 0x02 := by cases c.disposition <;> rfl
      simp only [context, Channel.bytes, Channel.flags, flagBits_eq, hdisposition]
      cases c.snapshot <;> cases c.episode with
      | none => rfl
      | some e =>
        rw [episodeBytes_some]
        dsimp only
        cases e.phase <;> rfl
    rw [← hcontext]
    exact ⟨c.bytes_length ch, exec_answered rfl rfl hd hp⟩
  · have hp : s.counted.perform source (.readChannel channel) = s.counted.answer .badIndex := by
      rw [State.perform, State.doReadChannel, channelOf_none hch]
    exact exec_answered rfl rfl hd hp

end Sys2Proof.Machine

/-! SUPPORT. The voids that close every open episode: at the silence of the driver, at a D-port link loss, and at a
frame that resyncs or takes the supply LOW (R79, R101 to R112, R174). -/

namespace Sys2Proof.Machine

/-! A voided context. -/

/-- A channel's context behind a void: no episode, one more neutral closure where one was open (R66, R68, R79). -/
def Channel.voided (c : Channel) : Channel :=
  { c with episode := none, neutral := c.neutral + (if c.episode.isSome then 1 else 0) }

section
variable {c : Channel} (ch : ChannelId)

theorem Channel.voided_of_closed (he : c.episode = none) : c.voided = c := by
  unfold Channel.voided
  rw [he, Option.isSome_none, if_neg Bool.false_ne_true, ← he]
  exact congrArg (fun neutral => { c with neutral }) (BitVec.add_zero c.neutral)

/-- Without an episode a closure from outside does nothing and hands nothing (R79). -/
theorem Channel.closeOutside_closed (outcome : EpisodeOutcome) (he : c.episode = none) :
    c.closeOutside ch outcome = (c, []) :=
  c.closeOutside_none ch outcome (by simp [Channel.tracking, he])

/-- On a sound context a neutral closure from outside is a void (R66, R67, R79). -/
theorem Channel.Sound.closeOutside_voided (hc : c.Sound) {outcome : EpisodeOutcome}
    (hn : outcome.outcomeClass = .neutral) : (c.closeOutside ch outcome).1 = c.voided := by
  cases he : c.episode with
  | none => rw [Channel.closeOutside_closed ch outcome he, Channel.voided_of_closed he]
  | some e =>
    obtain ⟨sn, e, _, _, ht⟩ := hc.tracking (by simp [he])
    rw [c.closeOutside_neutral ch outcome hn sn e ht]
    simp [Channel.voided, he]

/-- A frame on a channel without an episode keeps the energized flag and the snapshot, tripping or not (R86, R88). -/
theorem Channel.handleFrame_keeps (x : Half) (entry : Option SampleEntry) (he : c.episode = none) :
    (c.handleFrame ch x entry).1.energized = c.energized ∧ (c.handleFrame ch x entry).1.snapshot = c.snapshot := by
  rw [c.handleFrame_untracked ch x entry he]
  unfold Channel.checkOvercurrent
  split
  · split
    · rename_i entry sn _ _
      rcases Channel.decideLock_cases
        { c.trip with trips := c.trip.trips + 1, failCount := min 15 (c.trip.failCount + 1) } ch sn with
        ⟨_, hlock⟩ | ⟨_, hlock⟩ <;> rw [Channel.accountTrip, hlock] <;> exact ⟨rfl, rfl⟩
    · exact ⟨rfl, rfl⟩
  · exact ⟨rfl, rfl⟩

end

/-! Voids of every channel. -/

/-- The contexts behind a void (R79). Irreducible, as `State.voidReport` is, so that states are compared without running
the void. -/
@[irreducible] def State.voidedChannels (s : State) : Vector Channel 16 := Vector.ofFn fun ch => (s.channel ch).voided

/-- The report queue behind a void: the VERDICT records handed in ascending channel order (R79). -/
@[irreducible] def State.voidReport (s : State) (outcome : EpisodeOutcome) : ReportQueue :=
  allChannels.foldl (fun q ch => q.hand ((s.channel ch).closeOutside ch outcome).2) s.report

/-- Every context voided and the verdicts handed (R79). -/
def State.voidAll (s : State) (outcome : EpisodeOutcome) : State :=
  { s with
    channels := s.voidedChannels
    report := s.voidReport outcome }

/-- The same state with another observer. -/
def State.observing (s : State) (o : Observer) : State := { s with observer := o }

section
variable {s : State}

@[simp] theorem State.channel_observing (o : Observer) (ch : ChannelId) :
    (s.observing o).channel ch = s.channel ch := rfl

@[simp] theorem State.channel_voidAll (outcome : EpisodeOutcome) (ch : ChannelId) :
    (s.voidAll outcome).channel ch = (s.channel ch).voided := by
  simp [State.voidAll, State.channel, State.voidedChannels]

theorem State.voidAll_observing (o : Observer) (outcome : EpisodeOutcome) :
    (s.observing o).voidAll outcome = (s.voidAll outcome).observing o := by
  simp only [State.voidAll, State.voidedChannels, State.voidReport, State.channel_observing]
  rfl

/-- On sound channels a void with a neutral outcome voids every context (R66, R79). -/
theorem State.ChannelsSound.voidEpisodes_eq (hc : s.ChannelsSound) {outcome : EpisodeOutcome}
    (hn : outcome.outcomeClass = .neutral) : s.voidEpisodes outcome = s.voidAll outcome := by
  obtain ⟨channels, heq, hch⟩ := s.voidEpisodes_spec outcome
  have hchannels : channels = s.voidedChannels := by
    ext i hi
    rw [hch ⟨i, hi⟩, State.voidedChannels, Vector.getElem_ofFn, (hc _).closeOutside_voided _ hn]
  rw [heq, hchannels, State.voidAll, State.voidReport]

theorem State.putChannel_same (ch : ChannelId) : s.putChannel ch (s.channel ch, []) = s := by
  simp [State.putChannel, State.setChannel, State.channel, State.hand, ReportQueue.hand]

/-- A void where no episode is open does nothing (R79). -/
theorem State.voidEpisodes_closed (outcome : EpisodeOutcome) (h : ∀ ch : ChannelId, (s.channel ch).episode = none) :
    s.voidEpisodes outcome = s :=
  List.foldl_fixed' (fun ch => by rw [Channel.closeOutside_closed ch outcome (h ch), s.putChannel_same]) allChannels

/-! The driver's silence. -/

/-- On sound channels the silence of the driver voids every context, and DRIVER_SILENT stands behind the verdicts
(R103). -/
theorem State.ChannelsSound.fallSilent_spec (hc : s.ChannelsSound) : ∃ channels : Vector Channel 16,
    s.fallSilent =
      { s with
        observer := { s.observer with activity := .silent, reference := none, silenceTimer := none }
        channels
        report :=
          (allChannels.foldl (fun q ch => q.hand ((s.channel ch).closeOutside ch .voidSilent).2) s.report).hand
            [.driverSilent] } ∧
    ∀ ch : ChannelId, channels[ch.val] = (s.channel ch).voided := by
  obtain ⟨channels, heq, hch⟩ := s.fallSilent_spec
  exact ⟨channels, heq, fun ch => (hch ch).trans ((hc ch).closeOutside_voided ch rfl)⟩

end

section
variable (s : State)

theorem execSilenceExpiry_due (h : s.observer.silenceTimer = some 0) :
    exec .silenceExpiry s = .next s.fallSilent.arbitrate :=
  congrArg Host.Outcome.next (if_pos (by simp [State.silenceDue, h]))

theorem execSilenceExpiry_not_due (h : s.observer.silenceTimer ≠ some 0) : exec .silenceExpiry s = .next s :=
  congrArg Host.Outcome.next (if_neg (by simpa [State.silenceDue] using h))

theorem execLinkLossD_up (hup : s.dPort.up = true) : exec .linkLossD s = .next s.loseD.arbitrate :=
  congrArg Host.Outcome.next (if_pos hup)

/-- The D-port lost and its queue flushed, the driver not yet looked at (R173, R174). -/
def State.dropD : State := { s with dPort := s.dPort.lose s.dfq.length, dfq := [] }

/-- Link loss silences a driver that is ACTIVE (R112, R174). -/
theorem State.loseD_active (h : s.observer.activity = .active) : s.loseD = s.dropD.fallSilent := if_pos h

theorem State.loseD_silent (h : s.observer.activity = .silent) : s.loseD = s.dropD :=
  if_neg (by simp [h])

/-- The port at its loss: the abandoned counter rises by the transmission, if there is one (R173, R174). -/
theorem Port.lose_eq (p : Port) (flushed : Nat) : p.lose flushed =
    { p with
      up := false
      linkDown := p.linkDown + 1
      sending := none
      abandoned := p.abandoned + (if p.sending.isSome then 1 else 0)
      egressFlushed := p.egressFlushed + BitVec.ofNat 32 flushed } := by
  cases hs : p.sending <;> simp [Port.lose, hs]

end

/-- Settles O27: an expiry that is due is the silence of the driver, which voids every sound context. -/
theorem silenceExpiryVoidsAndReports : Obligations.SilenceExpiryVoidsAndReports := by
  intro s
  refine ⟨execSilenceExpiry_not_due s, fun hc hdue => ⟨_, execSilenceExpiry_due s hdue, ?_⟩⟩
  obtain ⟨channels, heq, hch⟩ := hc.fallSilent_spec
  rw [heq]
  exact ⟨rfl, hch, rfl, rfl⟩

/-- Settles O7: the port is lost, and an ACTIVE driver then falls silent as at the expiry. -/
theorem linkLossDFlushesAndSilences : Obligations.LinkLossDFlushesAndSilences := by
  intro s hup hc
  refine ⟨_, execLinkLossD_up s hup, ?_⟩
  cases hactivity : s.observer.activity with
  | active =>
    have hdropped : s.dropD.ChannelsSound := hc
    obtain ⟨channels, heq, hch⟩ := hdropped.fallSilent_spec
    rw [s.loseD_active hactivity, heq]
    exact ⟨s.dPort.lose_eq _, rfl, fun _ => ⟨rfl, hch, rfl⟩, nofun, rfl⟩
  | silent =>
    rw [s.loseD_silent hactivity]
    exact ⟨s.dPort.lose_eq _, rfl, nofun, fun _ => ⟨rfl, rfl, rfl⟩, rfl⟩

end Sys2Proof.Machine

/-! SUPPORT. A frame that resyncs or takes the supply LOW: the voids once over every channel, then the supply's record,
then the overcurrent check of each channel (R79, R101, R106 to R110, R167). -/

namespace Sys2Proof.Machine

/-! The supply. -/

/-- The frame returns a LOW supply to OK (R109). -/
abbrev State.SupplyReturns (s : State) (supply : Nat) : Prop :=
  s.observer.supply = .low ∧ (s.active.policy.supplyLow = 0 ∨ s.active.policy.supplyOk ≤ supply)

/-- The supply state behind an accepted frame (R109, R110). -/
def State.supplyAfter (s : State) (supply : Nat) : SupplyState :=
  if s.SupplyFalls supply then .low else if s.SupplyReturns supply then .ok else s.observer.supply

/-- The record of a change of the supply state, if there is one (R109, R110). -/
def State.supplyRecords (s : State) (supply : Nat) : List Record :=
  if s.SupplyFalls supply then [.supplyLow supply] else if s.SupplyReturns supply then [.supplyOk supply] else []

/-- The supply evaluation without its void (R109, R110). -/
def State.changeSupply (s : State) (supply : Nat) : State :=
  (s.observing { s.observer with supply := s.supplyAfter supply }).hand (s.supplyRecords supply)

section
variable {s : State} {supply : Nat}

@[simp] theorem State.channel_changeSupply (ch : ChannelId) : (s.changeSupply supply).channel ch = s.channel ch := rfl

/-- A supply that falls voids, and then SUPPLY_LOW is handed (R110). -/
theorem State.evaluateSupply_falls (h : s.SupplyFalls supply) : s.evaluateSupply supply =
    ((s.observing { s.observer with supply := .low }).voidEpisodes .voidSupply).hand [.supplyLow supply] := by
  obtain ⟨hok, hlow⟩ := h
  simp only [State.evaluateSupply, hok]
  exact if_pos hlow

theorem State.changeSupply_falls (h : s.SupplyFalls supply) : s.changeSupply supply =
    (s.observing { s.observer with supply := .low }).hand [.supplyLow supply] := by
  rw [State.changeSupply, State.supplyAfter, State.supplyRecords, if_pos h, if_pos h]

/-- A supply that does not fall voids nothing (R109). -/
theorem State.evaluateSupply_holds (h : ¬s.SupplyFalls supply) : s.evaluateSupply supply = s.changeSupply supply := by
  rw [State.changeSupply, State.supplyAfter, State.supplyRecords, if_neg h, if_neg h]
  by_cases hok : s.observer.supply = .ok
  · have hreturns : ¬s.SupplyReturns supply := by simp [State.SupplyReturns, hok]
    rw [State.evaluateSupply_stays hok h, if_neg hreturns, if_neg hreturns]
    rfl
  · have hlow : s.observer.supply = .low := by cases hs : s.observer.supply <;> simp_all
    simp only [State.evaluateSupply, hlow]
    by_cases hreturns : s.active.policy.supplyLow = 0 ∨ s.active.policy.supplyOk ≤ supply
    · rw [if_pos hreturns, if_pos ⟨hlow, hreturns⟩, if_pos ⟨hlow, hreturns⟩]
      rfl
    · have hstays : ¬s.SupplyReturns supply := fun h => hreturns h.2
      rw [if_neg hreturns, if_neg hstays, if_neg hstays, ← hlow]
      rfl

/-- Where no episode is open, the supply evaluation has nothing to void (R109, R110). -/
theorem State.evaluateSupply_closed (h : ∀ ch : ChannelId, (s.channel ch).episode = none) :
    s.evaluateSupply supply = s.changeSupply supply := by
  by_cases hfalls : s.SupplyFalls supply
  · have hclosed : ∀ ch : ChannelId,
        ((s.observing { s.observer with supply := .low }).channel ch).episode = none := h
    rw [State.evaluateSupply_falls hfalls, State.voidEpisodes_closed _ hclosed, State.changeSupply_falls hfalls]
  · exact State.evaluateSupply_holds hfalls

/-- On sound channels a supply that falls voids every context before the supply changes (R79, R110). -/
theorem State.ChannelsSound.evaluateSupply_falls (hc : s.ChannelsSound) (h : s.SupplyFalls supply) :
    s.evaluateSupply supply = (s.voidAll .voidSupply).changeSupply supply := by
  have hobserving : (s.observing { s.observer with supply := .low }).ChannelsSound := hc
  have hfalls : (s.voidAll .voidSupply).SupplyFalls supply := h
  rw [State.evaluateSupply_falls h, hobserving.voidEpisodes_eq rfl, State.voidAll_observing,
    State.changeSupply_falls hfalls]
  rfl

end

/-! Frames that void. -/

/-- The reference of an accepted frame (R107, R108). -/
def State.referTo (s : State) (x : Half) : State := s.observing { s.observer with reference := some x }

/-- The index resyncs: it stands 32768 or more from the reference (R106). -/
abbrev State.Resyncs (s : State) (x : Half) : Prop := ∃ r ∈ s.observer.reference, 32768 ≤ (x - r).toNat

/-- The outcome that a voiding frame closes the open episodes with: the resync comes first (R107, R110). -/
def State.voidOutcome (s : State) (x : Half) : EpisodeOutcome := if s.Resyncs x then .voidGap else .voidSupply

/-- The resync counter behind an accepted frame (R107, R159). -/
def State.countResync (s : State) (resyncs : Prop) [Decidable resyncs] : State :=
  { s with monitor := { s.monitor with resync := s.monitor.resync + (if resyncs then 1 else 0) } }

@[simp] theorem State.channel_referTo (s : State) (x : Half) (ch : ChannelId) :
    (s.referTo x).channel ch = s.channel ch := rfl

@[simp] theorem State.channel_countResync (s : State) (resyncs : Prop) [Decidable resyncs] (ch : ChannelId) :
    (s.countResync resyncs).channel ch = s.channel ch := rfl

theorem State.countResync_of_not {s : State} {resyncs : Prop} [Decidable resyncs] (h : ¬resyncs) :
    s.countResync resyncs = s := by
  rw [State.countResync, if_neg h]
  exact congrArg (fun resync => { s with monitor := { s.monitor with resync } }) (BitVec.add_zero s.monitor.resync)

section
variable {s : State}

/-- The reference, the supply, the channels (R108). -/
theorem State.acceptSample_eq (m : Sample) :
    s.acceptSample m = ((s.referTo m.index).evaluateSupply m.supply).trackFrame m := rfl

theorem State.observeSample_resync {m : Sample} (h : s.Resyncs m.index) :
    s.observeSample m = s.resync.acceptSample m := by
  have hclass : classify s.observer.reference m.index = .resync := (classify_resync_iff _ _).2 h
  simp only [State.observeSample, hclass]

theorem State.observeSample_accepts {m : Sample} (href : s.observer.reference ≠ some m.index)
    (h : ¬s.Resyncs m.index) : s.observeSample m = s.acceptSample m := by
  unfold State.observeSample
  cases hclass : classify s.observer.reference m.index with
  | duplicate => exact absurd ((classify_duplicate_iff _ _).1 hclass) href
  | resync => exact absurd ((classify_resync_iff _ _).1 hclass) h
  | absent | advance => rfl

/-- An accepted frame that resyncs or takes the supply LOW, up to the channels' turn: every context is voided once, and
the record of the supply stands behind the verdicts (R79, R107 to R110). -/
theorem State.ChannelsSound.observeSample_eq_trackFrame (hc : s.ChannelsSound) {m : Sample}
    (href : s.observer.reference ≠ some m.index) (hvoids : s.Resyncs m.index ∨ s.SupplyFalls m.supply) :
    s.observeSample m =
      ((((s.voidAll (s.voidOutcome m.index)).countResync (s.Resyncs m.index)).referTo m.index).changeSupply
        m.supply).trackFrame m := by
  by_cases hresync : s.Resyncs m.index
  · have hclosed : ∀ ch : ChannelId, ((s.resync.referTo m.index).channel ch).episode = none := fun ch => by
      rw [State.channel_referTo, s.channel_resync]
      exact (s.channel ch).closeOutside_episode ch .voidGap (hc ch)
    have hresynced : s.resync = (s.voidAll .voidGap).countResync (s.Resyncs m.index) := by
      rw [State.resync, hc.voidEpisodes_eq rfl, State.countResync, if_pos hresync]
    rw [State.observeSample_resync hresync, State.acceptSample_eq, State.evaluateSupply_closed hclosed, hresynced,
      State.voidOutcome, if_pos hresync]
  · have hfalls : (s.referTo m.index).SupplyFalls m.supply := hvoids.resolve_left hresync
    have hreferred : (s.referTo m.index).ChannelsSound := hc
    rw [State.observeSample_accepts href hresync, State.acceptSample_eq, hreferred.evaluateSupply_falls hfalls,
      State.voidOutcome, if_neg hresync, State.countResync_of_not hresync, State.referTo, State.voidAll_observing]
    rfl

/-- The supply evaluation behind the voids reads nothing that they touch (R108). -/
theorem State.changeSupply_voided (outcome : EpisodeOutcome) (resyncs : Prop) [Decidable resyncs] (x : Half)
    (supply : Nat) : (((s.voidAll outcome).countResync resyncs).referTo x).changeSupply supply =
      { s with
        observer := { s.observer with reference := some x, supply := s.supplyAfter supply }
        channels := s.voidedChannels
        report := (s.voidReport outcome).hand (s.supplyRecords supply)
        monitor := { s.monitor with resync := s.monitor.resync + (if resyncs then 1 else 0) } } :=
  rfl

/-- The whole of such a frame: the voids, the supply's record, then every context's own turn, in channel order (R45,
R79, R107 to R110). -/
theorem State.ChannelsSound.observeSample_voids (hc : s.ChannelsSound) {m : Sample}
    (href : s.observer.reference ≠ some m.index) (hvoids : s.Resyncs m.index ∨ s.SupplyFalls m.supply) :
    ∃ channels : Vector Channel 16,
      s.observeSample m =
        { s with
          observer := { s.observer with reference := some m.index, supply := s.supplyAfter m.supply }
          channels
          report :=
            allChannels.foldl (fun q ch => q.hand ((s.channel ch).voided.handleFrame ch m.index (m.entry? ch)).2)
              ((s.voidReport (s.voidOutcome m.index)).hand (s.supplyRecords m.supply))
          monitor := { s.monitor with resync := s.monitor.resync + (if s.Resyncs m.index then 1 else 0) } } ∧
      ∀ ch : ChannelId, channels[ch.val] = ((s.channel ch).voided.handleFrame ch m.index (m.entry? ch)).1 := by
  obtain ⟨channels, htracked, hch⟩ := State.trackFrame_spec
    ((((s.voidAll (s.voidOutcome m.index)).countResync (s.Resyncs m.index)).referTo m.index).changeSupply m.supply) m
  simp only [State.channel_changeSupply, State.channel_referTo, State.channel_countResync,
    State.channel_voidAll] at htracked hch
  rw [← hc.observeSample_eq_trackFrame href hvoids, State.changeSupply_voided] at htracked
  exact ⟨channels, htracked, hch⟩

/-- A frame offered to the UFQ is placed or counted (R167). -/
theorem State.offerUfq_eq (f : Frame) : s.offerUfq f =
    { s with
      ufq := if s.ufq.length < 8 then s.ufq ++ [f] else s.ufq
      dPort := { s.dPort with ingressFull := s.dPort.ingressFull + (if s.ufq.length < 8 then 0 else 1) } } := by
  by_cases h : s.ufq.length < 8 <;> simp [State.offerUfq, forwardCapacity, h]

theorem State.classifyD_sample {f : Frame} {m : Sample} (hk : f.kind = Frame.sampleKind)
    (hm : readSample f.payload = some m) : s.classifyD f = (s.observeSample m).offerUfq f := by
  simp [State.classifyD, hk, State.observe, hm]

end

/-- Settles O20: behind the sign of life the frame voids every context once, and the channels' turn then finds no
episode, so that it is the overcurrent check alone. -/
theorem voidingFramesCloseEveryEpisode : Obligations.VoidingFramesCloseEveryEpisode := by
  intro s bytes f m hc hup hf hk hm href resyncs falls returns outcome voided hvoids
  have halive : s.signOfLife.countReceivedD.ChannelsSound := hc
  obtain ⟨channels, hobserved, hch⟩ := halive.observeSample_voids href hvoids
  rw [State.voidReport] at hobserved
  have hchannels : ∀ ch : ChannelId, channels[ch.val] = ((voided ch).handleFrame ch m.index (m.entry? ch)).1 := hch
  refine ⟨_, execDPortReceipt_valid s hup hf, ?_⟩
  rw [State.classifyD_sample hk hm, hobserved, State.offerUfq_eq]
  refine ⟨rfl, rfl, hchannels, rfl, fun ch => ?_, fun ch hnone => ?_, rfl, rfl, rfl⟩
  · obtain ⟨henergized, hsnapshot⟩ := (voided ch).handleFrame_keeps ch m.index (m.entry? ch) rfl
    have hepisode := (voided ch).handleFrame_episode ch m.index (m.entry? ch) rfl
    rw [← hchannels ch] at henergized hsnapshot hepisode
    exact ⟨hepisode, henergized, hsnapshot⟩
  · have hkept : channels[ch.val] = voided ch := by
      rw [hchannels ch, Channel.handleFrame_untracked _ ch _ _ rfl,
        Channel.checkOvercurrent_passes _ ch (.inl hnone)]
    exact ⟨(congrArg Channel.disposition hkept :), (congrArg Channel.failCount hkept :),
      (congrArg Channel.pendingInjection hkept :)⟩

end Sys2Proof.Machine

/-! SUPPORT. The resistance check (R73, R74): the exact quotient rounded down, and the presence bit of the VERDICT. -/

namespace Sys2Proof.Machine

/-- The last of four flags is bit 3 (R184). -/
theorem flagBits_getLsbD_three (b₀ b₁ b₂ b₃ : Bool) : (flagBits b₀ b₁ b₂ b₃).getLsbD 3 = b₃ := by
  revert b₀ b₁ b₂ b₃; decide

/-- The quotient by a current sum above 0 is rounded down (R73). -/
theorem quotient_bounds {sumCurrent : Int} (h : 0 < sumCurrent) (sumVoltage : Nat) :
    ((1000 * sumVoltage / sumCurrent.toNat : Nat) : Int) * sumCurrent ≤ 1000 * sumVoltage ∧
      1000 * (sumVoltage : Int) < ((1000 * sumVoltage / sumCurrent.toNat : Nat) + 1) * sumCurrent := by
  obtain ⟨current, rfl⟩ := Int.eq_ofNat_of_zero_le h.le
  have hpos : 0 < current := by omega
  rw [Int.toNat_natCast]
  exact_mod_cast And.intro (Nat.div_mul_le_self _ _) ((Nat.div_lt_iff_lt_mul hpos).1 (Nat.lt_succ_self _))

section
variable {g : MeasureGroup} {n : Nat}

theorem judgeResistance_low (h : n < g.rMin) : judgeResistance g (some n) = .resLow := if_pos h

/-- A resistance above r_max is judged RES_HIGH, the limits being in order (R74). -/
theorem judgeResistance_high (hlimits : g.rMin < g.rMax) (h : g.rMax < n) : judgeResistance g (some n) = .resHigh :=
  (if_neg (by omega)).trans (if_pos h)

theorem judgeResistance_pass (hmin : g.rMin ≤ n) (hmax : n ≤ g.rMax) : judgeResistance g (some n) = .pass :=
  (if_neg (not_lt.2 hmin)).trans (if_neg (not_lt.2 hmax))

end

/-- Settles O56: a current sum above 0 gives the quotient rounded down, any other no resistance. -/
theorem resistanceIsExact : Obligations.ResistanceIsExact := by
  intro e g entry c ch sn hfull hrMin hlimits sumCurrent sumVoltage
  refine ⟨_, _, _, Episode.stepMeasure_closes hfull, rfl, flagBits_getLsbD_three _ _ _ _, fun hsum => ?_,
    fun hsum => ?_⟩
  · have hnone : resistance? sumCurrent sumVoltage = none := resistance?_of_nonpos hsum
    rw [hnone]
    exact ⟨rfl, rfl⟩
  · have hsome : resistance? sumCurrent sumVoltage = some (1000 * sumVoltage / sumCurrent.toNat) :=
      resistance?_of_pos hsum
    obtain ⟨hlower, hupper⟩ := quotient_bounds hsum sumVoltage
    rw [hsome]
    refine ⟨_, rfl, hlower, hupper, fun hfits => ?_, fun hzero => ?_, judgeResistance_low,
      judgeResistance_high hlimits, judgeResistance_pass⟩
    · exact (Nat.div_le_self _ _).trans (by omega)
    · rw [hzero, Nat.mul_zero, Nat.zero_div]
      exact ⟨rfl, judgeResistance_low hrMin⟩

end Sys2Proof.Machine

/-! SUPPORT. What the arbiters select where a port is free (R92, R96, R163, R168, R170), and the injected departure
(R91 to R94). -/

namespace Sys2Proof.Machine

section
variable (s : State)

/-! A free port. -/

theorem Port.ready_iff (p : Port) : p.ready = true ↔ p.up = true ∧ p.sending = none := by simp [Port.ready]

/-- A port that is DOWN or transmits is not free (R163). -/
theorem Port.not_ready {p : Port} (h : p.up = false ∨ p.sending ≠ none) : ¬p.ready = true := by
  rw [p.ready_iff]
  rintro ⟨hup, hsending⟩
  rcases h with h | h
  · exact absurd hup (by simp [h])
  · exact h hsending

/-! The D-port. -/

/-- The injection unit's offer stands while some channel has its injection pending (R92). -/
theorem State.injectionOffered_iff :
    s.injectionOffered = true ↔ ∃ ch : ChannelId, (s.channel ch).pendingInjection = true := by
  simp [State.injectionOffered]

theorem State.dWaits_queueHead : s.dWaits .queueHead = true ↔ s.dfq ≠ [] := by simp [State.dWaits]

/-- On a port that is DOWN or transmits the D-port arbiter selects nothing (R163, R168). -/
theorem State.dStanding_blocked (h : s.dPort.up = false ∨ s.dPort.sending ≠ none) : s.dStanding = none :=
  if_neg (Port.not_ready h)

/-- A source selected before stands at the D-port while it waits (R96). -/
theorem State.dStanding_kept {d : DSource} (hr : s.dPort.ready = true) (hs : s.dSelected = some d)
    (hw : s.dWaits d = true) : s.dStanding = some d := by
  simp [State.dStanding, hr, hs, hw]

/-- Where no source selected before waits, the D-port arbiter's choice stands (R168). -/
theorem State.dStanding_selects (hr : s.dPort.ready = true) (hn : ∀ d, s.dSelected = some d → s.dWaits d = false) :
    s.dStanding = s.dSelect := by
  rw [State.dStanding, if_pos hr, Option.filter_eq_none_iff.2 fun d hd => by simp [hn d hd], Option.none_or]

/-! The C-port. -/

/-- On a port that is DOWN or transmits the C-port arbiter selects nothing (R163, R170). -/
theorem State.cStanding_blocked (h : s.cPort.up = false ∨ s.cPort.sending ≠ none) : s.cStanding = none :=
  if_neg (Port.not_ready h)

/-- A source selected before stands at the C-port while it waits (R170). -/
theorem State.cStanding_kept {c : CSource} (hr : s.cPort.ready = true) (hs : s.cSelected = some c)
    (hw : s.cWaits c = true) : s.cStanding = some c := by
  simp [State.cStanding, hr, hs, hw]

/-- Where no source selected before waits, the C-port arbiter's choice stands (R170). -/
theorem State.cStanding_selects (hr : s.cPort.ready = true) (hn : ∀ c, s.cSelected = some c → s.cWaits c = false) :
    s.cStanding = s.cSelect := by
  rw [State.cStanding, if_pos hr, Option.filter_eq_none_iff.2 fun c hc => by simp [hn c hc], Option.none_or]

/-- The C-port arbiter's choice: a response, then a report unless the marker gives the UFQ head its turn, then the UFQ
head (R170). -/
theorem State.cSelect_eq : s.cSelect =
    if s.responses ≠ [] then some .response
    else if s.report.offer ≠ none ∧ (s.ufq = [] ∨ s.marker = .forward) then some .report
    else if s.ufq ≠ [] then some .forward else none := by
  unfold State.cSelect
  cases s.responses with
  | cons => rfl
  | nil => cases s.report.offer <;> cases s.ufq <;> simp

/-! The selections of both arbiters. -/

/-- A free D-port: the queue head selected before stands while it waits; otherwise an injection comes before it (R96,
R168). -/
theorem State.dStanding_free (hr : s.dPort.ready = true) :
    (s.dSelected = some .queueHead → s.dfq ≠ [] → s.dStanding = some .queueHead) ∧
    (s.dSelected ≠ some .queueHead ∨ s.dfq = [] → s.dStanding = s.dSelect) := by
  refine ⟨fun hs hne => s.dStanding_kept hr hs (s.dWaits_queueHead.2 hne), fun hfree => ?_⟩
  have hqueue : s.dSelected = some .queueHead → s.dWaits .queueHead = false := fun hs => by
    have hempty : s.dfq = [] := hfree.resolve_left (not_not.2 hs)
    simp [State.dWaits, hempty]
  cases hi : s.injectionOffered with
  | false => exact s.dStanding_selects hr fun | .injection, _ => hi | .queueHead, hs => hqueue hs
  | true =>
    have hselect : s.dSelect = some .injection := if_pos hi
    by_cases hs : s.dSelected = some .injection
    · exact (s.dStanding_kept hr hs hi).trans hselect.symm
    · exact s.dStanding_selects hr fun | .injection, h => absurd h hs | .queueHead, h => hqueue h

end

/-- Settles O9: on a free port a source that was selected before stands while it waits, and the arbiter's own choice
otherwise. -/
theorem arbitersSelectWhereASourceWaits : Obligations.ArbitersSelectWhereASourceWaits := by
  refine fun s => ⟨s.dStanding_blocked, fun hup hsending => ?_, s.cStanding_blocked, fun hup hsending => ?_⟩
  · obtain ⟨hkept, hselects⟩ := s.dStanding_free (s.dPort.ready_iff.2 ⟨hup, hsending⟩)
    refine ⟨hkept, fun hfree => ⟨fun hpending => ?_, fun hnone => ?_⟩⟩ <;> rw [hselects hfree]
    · exact if_pos (s.injectionOffered_iff.2 hpending)
    · have hi : ¬s.injectionOffered = true := by simpa [s.injectionOffered_iff] using hnone
      simp [State.dSelect, hi]
  · have hr : s.cPort.ready = true := s.cPort.ready_iff.2 ⟨hup, hsending⟩
    refine ⟨fun hs hw => s.cStanding_kept hr hs ?_, fun hs hw => s.cStanding_kept hr hs ?_,
      fun hs hw => s.cStanding_kept hr hs ?_, fun hresponse hreport hforward => ?_⟩
    · simpa [State.cWaits] using hw
    · simpa [State.cWaits, Option.isSome_iff_ne_none] using hw
    · simpa [State.cWaits] using hw
    · rw [← s.cSelect_eq]
      refine s.cStanding_selects hr fun
        | .response, hs => ?_
        | .report, hs => ?_
        | .forward, hs => ?_
      · simp [State.cWaits, hresponse hs]
      · simp [State.cWaits, hreport hs]
      · simp [State.cWaits, hforward hs]

/-! The injected departure. -/

/-- A selected injection departs, with the arbiters' acts behind it (R169). -/
theorem exec_injectedDeparture {s : State} (hs : s.dStanding = some .injection) :
    exec .injectedDeparture s = .next s.departInjection.arbitrate := congrArg Host.Outcome.next (if_pos hs)

/-- Settles O23: the frame is the injected one of the state at the departure, whose pass releases the channels it
names. -/
theorem injectedDepartureReleasesThePending : Obligations.InjectedDepartureReleasesThePending := by
  intro s hs
  obtain ⟨_, _, hoffered, _⟩ := s.dStanding_spec hs
  obtain ⟨channels, hdepart, hchannels⟩ := s.departInjection_frame
  exact ⟨s.departInjection, s.injectedFrame, exec_injectedDeparture hs, by rw [hdepart], Frame.withCrc_intact _, rfl,
    rfl, rfl, rfl, s.readCommand_injectedFrame hoffered, by rw [hdepart], by rw [hdepart],
    fun ch => by rw [hdepart]; exact hchannels ch, by rw [hdepart]⟩

end Sys2Proof.Machine

/-! SUPPORT. What the part does by itself when no command waits (R102, R126, R148, R179). -/

namespace Sys2Proof.Machine

section
variable (s : State)

/-- With no command waiting the step is what the part does by itself (log entry 5). -/
theorem step_idle {s : State} (h : s.pending = []) : step s = s.idle := by
  unfold step
  rw [h]

/-- An expiry is due exactly where the ticks of its timer have passed (R102, R126, R148). -/
theorem State.mem_due_iff (c : Instr) : c ∈ s.due ↔
    c = .silenceExpiry ∧ s.observer.silenceTimer = some 0 ∨
    c = .retransmitExpiry ∧ s.report.retransmitTimer = some 0 ∨
    c = .leaseExpiry ∧ ∃ session, s.session = some session ∧ session.lease = 0 := by
  simp only [State.due, List.mem_append, List.mem_ite_nil_right, List.mem_singleton, State.leaseDue_iff,
    State.silenceDue, State.retransmitDue, beq_iff_eq]
  tauto

/-- An expiry that alone is due is what the part does. -/
theorem State.idle_alone {c : Instr} (h : s.due = [c]) : s.idle = exec c s := by
  unfold State.idle
  rw [h]

/-- Of several expiries that are due, the part takes one and counts the free order (log entry 7). -/
theorem State.idle_several (h : 2 ≤ s.due.length) :
    ∃ c ∈ s.due, s.idle = exec c { s with freeCount := s.freeCount + 1 } := by
  unfold State.idle
  cases hdue : s.due with
  | nil => simp [hdue] at h
  | cons c rest =>
    cases rest with
    | nil => simp [hdue] at h
    | cons d rest =>
      refine ⟨_, ?_, rfl⟩
      rw [List.getD_eq_getElem _ _ (Nat.mod_lt _ (by simp))]
      exact List.getElem_mem _

/-- With nothing due the part counts one tick (R179). -/
theorem State.idle_tick (h : s.due = []) : s.idle = .next s.tick := by
  unfold State.idle
  rw [h]

end

/-- Settles O3, by the number of expiries that are due. -/
theorem idleStepIsAnExpiryThatIsDue : Obligations.IdleStepIsAnExpiryThatIsDue := by
  intro s hpending
  rw [step_idle hpending]
  exact ⟨fun c => s.idle_alone, s.idle_several, s.mem_due_iff⟩

/-- Settles O4: with nothing due the step is the tick, timer by timer. -/
theorem idleTickCountsTheTimers : Obligations.IdleTickCountsTheTimers := by
  intro s hpending hsilence hretransmit hlease
  have hdue : s.due = [] := List.eq_nil_iff_forall_not_mem.2 fun c hc => by
    rcases (s.mem_due_iff c).1 hc with ⟨_, h⟩ | ⟨_, h⟩ | ⟨_, session, hs, h⟩
    · exact hsilence h
    · exact hretransmit h
    · exact hlease session hs h
  refine ⟨s.tick, by rw [step_idle hpending, s.idle_tick hdue], fun n hn => ?_, fun hn => ?_, fun n hn => ?_,
    fun hn => ?_, fun session n hs hn => ?_, fun hs => ?_, rfl⟩
  · rw [s.tick_observer, hn]; rfl
  · rw [s.tick_observer, hn, Option.map_none, ← hn]
  · rw [s.tick_report, hn]; rfl
  · rw [s.tick_report, hn, Option.map_none, ← hn]
  · rw [s.tick_session, hs, Option.map_some, hn]; rfl
  · rw [s.tick_session, hs]; rfl

end Sys2Proof.Machine

/-! SUPPORT. Receipt: the damaged frames (R163, R164), and the D-port frames that the observer takes nothing from (R101,
R105, R106, R166, R167). -/

namespace Sys2Proof.Machine

/-! The checks at receipt. -/

/-- Bytes of the wrong size are no frame (R164). -/
theorem checkFrame_badSize {bytes : List Byte} (h : bytes.length < 7 ∨ 103 < bytes.length) :
    checkFrame bytes = .badSize := by
  unfold checkFrame
  exact if_pos (by simpa using h)

/-- Bytes of a right size are checked for their sequence, then for their length field (R164). -/
theorem checkFrame_sized (kind destination source sequence size : Byte) (payload : List Byte) (hi lo : Byte)
    (h : payload.length ≤ 96) :
    checkFrame ((kind :: destination :: source :: sequence :: size :: payload) ++ [hi, lo]) =
      if crc16 (kind :: destination :: source :: sequence :: size :: payload) ≠ half2 hi lo then .badCrc
      else if 96 < size.toNat ∨ size.toNat ≠ payload.length then .badLength
      else .valid { kind, destination, source, sequence, payload, crc := half2 hi lo } := by
  generalize hbody : kind :: destination :: source :: sequence :: size :: payload = body
  have hlength : body.length = payload.length + 5 := by rw [← hbody]; rfl
  have hsize : (body ++ [hi, lo]).length = payload.length + 7 := by simp [hlength]
  have hfront : (body ++ [hi, lo]).length - 2 = body.length := by simp
  unfold checkFrame
  rw [if_neg (by rw [hsize]; simp; omega), hfront, List.take_left, List.drop_left, hsize, ← hbody]
  simp only [bne_iff_ne, Bool.or_eq_true, decide_eq_true_eq, Nat.add_sub_cancel]

/-- A wrong check sequence (R164). -/
theorem checkFrame_badCrc {body : List Byte} {hi lo : Byte} (hmin : 5 ≤ body.length) (hmax : body.length ≤ 101)
    (h : crc16 body ≠ half2 hi lo) : checkFrame (body ++ [hi, lo]) = .badCrc := by
  match body, hmin with
  | kind :: destination :: source :: sequence :: size :: payload, _ =>
    rw [checkFrame_sized kind destination source sequence size payload hi lo (by simp at hmax; omega), if_pos h]

/-- A wrong length field behind a correct check sequence (R164). -/
theorem checkFrame_badLength {kind destination source sequence size hi lo : Byte} {payload : List Byte}
    (hmax : payload.length ≤ 96)
    (hcrc : crc16 (kind :: destination :: source :: sequence :: size :: payload) = half2 hi lo)
    (h : 96 < size.toNat ∨ size.toNat ≠ payload.length) :
    checkFrame ((kind :: destination :: source :: sequence :: size :: payload) ++ [hi, lo]) = .badLength := by
  rw [checkFrame_sized _ _ _ _ _ _ _ _ hmax, if_neg (not_not.2 hcrc), if_pos h]

section
variable (s : State) (bytes : List Byte)

/-! Receipt at a port. -/

theorem execCPortReceipt_down (h : s.cPort.up = false) : exec (.cPortReceipt bytes) s = .next s :=
  congrArg Host.Outcome.next (if_neg (by simp [h]))

theorem execDPortReceipt_down (h : s.dPort.up = false) : exec (.dPortReceipt bytes) s = .next s :=
  congrArg Host.Outcome.next (if_neg (by simp [h]))

theorem execCPortReceipt_up (h : s.cPort.up = true) : exec (.cPortReceipt bytes) s = .next (s.receiveC bytes) :=
  congrArg Host.Outcome.next (if_pos h)

theorem execDPortReceipt_up (h : s.dPort.up = true) : exec (.dPortReceipt bytes) s = .next (s.receiveD bytes) :=
  congrArg Host.Outcome.next (if_pos h)

end

/-- Settles O12, by the check that the bytes fail. -/
theorem damagedFramesAreDropped : Obligations.DamagedFramesAreDropped := by
  intro s bytes
  refine ⟨execCPortReceipt_down s bytes, execDPortReceipt_down s bytes, fun hsize => ?_, ?_, ?_⟩
  · have hcheck := checkFrame_badSize hsize
    exact ⟨fun hup => by rw [execCPortReceipt_up s bytes hup, State.receiveC, hcheck],
      fun hup => by rw [execDPortReceipt_up s bytes hup, State.receiveD, hcheck]⟩
  · rintro body hi lo rfl hmin hmax hcrc
    have hcheck := checkFrame_badCrc hmin hmax hcrc
    exact ⟨fun hup => by rw [execCPortReceipt_up s _ hup, State.receiveC, hcheck],
      fun hup => by rw [execDPortReceipt_up s _ hup, State.receiveD, hcheck]⟩
  · rintro kind destination source sequence size payload hi lo rfl hmax hcrc hlength
    have hcheck := checkFrame_badLength hmax hcrc (by simpa using hlength)
    exact ⟨fun hup => by rw [execCPortReceipt_up s _ hup, State.receiveC, hcheck],
      fun hup => by rw [execDPortReceipt_up s _ hup, State.receiveD, hcheck]; rfl⟩

/-! Frames that the observer takes nothing from. -/

section
variable {s : State} {f : Frame}

/-- A frame that is no SAMPLE frame is not observed (R166). -/
theorem State.classifyD_other (h : f.kind ≠ Frame.sampleKind) : s.classifyD f = s.offerUfq f := by
  rw [State.classifyD, if_neg h]

/-- A malformed SAMPLE frame is counted (R105). -/
theorem State.classifyD_malformed (hk : f.kind = Frame.sampleKind) (hm : readSample f.payload = none) :
    s.classifyD f =
      State.offerUfq { s with monitor := { s.monitor with malformedSample := s.monitor.malformedSample + 1 } } f := by
  rw [State.classifyD, if_pos hk, State.observe, hm]

/-- A frame with the reference's own index is counted as a duplicate (R106). -/
theorem State.observeSample_duplicate {m : Sample} (h : s.observer.reference = some m.index) :
    s.observeSample m =
      { s with monitor := { s.monitor with duplicateSample := s.monitor.duplicateSample + 1 } } := by
  simp only [State.observeSample, (classify_duplicate_iff _ _).2 h]

end

/-- Settles O15: the sign of life, the counter and the place in the UFQ are the whole receipt. -/
theorem dPortReceiptForwardsUpstream : Obligations.DPortReceiptForwardsUpstream := by
  intro s bytes f hup hf hk
  refine ⟨_, execDPortReceipt_valid s hup hf, ?_⟩
  rw [State.classifyD_other hk, State.offerUfq_eq, State.signOfLife_eq]
  refine ⟨rfl, rfl, fun hroom => ⟨if_pos hroom, ?_⟩, fun hfull => ⟨if_neg (Nat.not_lt.2 hfull), ?_⟩, rfl⟩
  · simp [hroom]
  · simp [Nat.not_lt.2 hfull]

/-- Settles O16: behind the sign of life the observer does no more than count the frame. -/
theorem unobservedSamplesOnlyCount : Obligations.UnobservedSamplesOnlyCount := by
  intro s bytes f hup hf hk counted
  refine ⟨fun hm => ?_, fun m hm href => ?_⟩
  · refine (execDPortReceipt_valid s hup hf).trans ?_
    rw [State.classifyD_malformed hk hm, State.offerUfq_eq]
    rfl
  · have hduplicate : s.signOfLife.countReceivedD.observer.reference = some m.index := href
    refine (execDPortReceipt_valid s hup hf).trans ?_
    rw [State.classifyD_sample hk hm, State.observeSample_duplicate hduplicate, State.offerUfq_eq]
    rfl

end Sys2Proof.Machine

/-! SUPPORT. The counters as READ_COUNTERS returns and clears them (R138, R158, R159, R177). -/

namespace Sys2Proof.Machine

section
variable (s : State)

/-- The PORT group is the link states, the queue lengths and the counters in the order of 10.5. -/
theorem State.portGroup_eq : s.portGroup =
    [if s.cPort.up then 0x01 else 0x00, if s.dPort.up then 0x01 else 0x00, BitVec.ofNat 8 s.dfq.length,
      BitVec.ofNat 8 s.ufq.length] ++
      [s.cPort.received, s.cPort.crcError, s.cPort.lengthError, s.misaddressed, s.cPort.ingressFull,
        s.cPort.egressFlushed, s.cPort.transmitted, s.cPort.abandoned, s.cPort.linkDown, s.dPort.received,
        s.dPort.crcError, s.dPort.lengthError, s.dPort.ingressFull, s.dPort.egressFlushed, s.dPort.transmitted,
        s.dPort.abandoned, s.dPort.linkDown].flatMap countBytes := by
  simp [State.portGroup, Port.headBytes, Port.tailBytes, Port.linkByte, flagByte, byteOf]

/-- The monitor counters in the order of R159. -/
theorem Monitor.bytes_eq (m : Monitor) : m.bytes =
    [m.blockedEntry, m.malformedCommand, m.injectedFrame, m.malformedSample, m.duplicateSample, m.resync,
      m.reportFrame, m.staleAck, m.requestExecuted, m.requestDropped, m.replay, m.replayDropped,
      m.responseDiscarded].flatMap countBytes := by
  simp [Monitor.bytes]

/-- The observer's figures, an absent reference as 0 (R115, R184). -/
theorem Observer.figures_eq (o : Observer) : o.figures =
    (match o.reference with
      | some index => 0x01 :: bytes2 index.toNat
      | none => [0x00, 0x00, 0x00]) ++
      (match o.supply with
      | .ok => [0x00]
      | .low => [0x01]) ++
      (match o.activity with
      | .silent => [0x00]
      | .active => [0x01]) := by
  unfold Observer.figures
  cases o.reference <;> cases o.supply <;> cases o.activity <;> rfl

theorem countBytes_length (c : Count) : (countBytes c).length = 4 := rfl

theorem State.portGroup_length : s.portGroup.length = 72 := by
  simp [State.portGroup, Port.headBytes, Port.tailBytes, countBytes_length]

theorem Observer.figures_length (o : Observer) : o.figures.length = 5 := by
  unfold Observer.figures
  cases o.reference <;> rfl

theorem State.monitorGroup_length : s.monitorGroup.length = 64 := by
  simp [State.monitorGroup, Monitor.bytes, countBytes_length, ReportQueue.figures, halfBytes, bytes2,
    Observer.figures_length]

/-- The newest entry in front, no other of its source, and four in all (R143, R144). -/
theorem cacheInsert_eq (cache : List CacheEntry) (e : CacheEntry) :
    cacheInsert cache e = (e :: cache.filter fun x => decide (x.source ≠ e.source)).take 4 := by
  simp [cacheInsert, cacheCapacity, bne, beq_eq_decide]

/-- READ_COUNTERS executed: the values with the request counted, and the group cleared on demand (R139, R144, R148,
R158). -/
theorem exec_readCounters {source tag : Byte} (group : CounterGroup) (clear : Bool) (hd : s.Deliverable source tag) :
    let read := if clear then s.counted.clearGroup group else s.counted
    let response := responseFrame read.ownAddress source tag 0x06 .ok
      (group.code :: flagByte clear :: s.counted.groupBytes group)
    exec (.readCounters source tag group clear) s = .next (State.arbitrate
      { read with
        session := renewed read.session source
        cache := (⟨source, tag, response⟩ :: read.cache.filter fun x => decide (x.source ≠ source)).take 4
        responses := read.responses ++ [response] }) := by
  intro read response
  rw [exec_delivered s rfl hd, Reply.finish_eq, cacheInsert_eq]
  rfl

end

/-- The payload of a response is the kind, the status and the results (10.5). -/
theorem responseFrame_length (own source tag kind : Byte) (status : Status) (results : List Byte) :
    (responseFrame own source tag kind status results).payload.length = results.length + 2 := rfl

/-- Settles O32: the groups are laid out as 10.5 says, and a clearing read leaves the rest of the state. -/
theorem readCountersAnswersAndClears : Obligations.ReadCountersAnswersAndClears := by
  intro s source tag clear hd flag up counters c d m port monitor portResponse monitorResponse cache
  have hport : s.counted.portGroup = port := s.counted.portGroup_eq
  have hmonitor : s.counted.monitorGroup = monitor := by
    rw [State.monitorGroup, Monitor.bytes_eq, Observer.figures_eq, ← List.append_assoc, ← List.append_assoc]
    rfl
  have hexec := fun group => exec_readCounters s group clear hd
  refine ⟨?_, ?_, (hexec .port).trans ?_, (hexec .monitor).trans ?_⟩
  · rw [responseFrame_length, ← hport, List.length_cons, List.length_cons, State.portGroup_length]
  · rw [responseFrame_length, ← hmonitor, List.length_cons, List.length_cons, State.monitorGroup_length]
  · rw [State.groupBytes, hport]
    cases clear <;> rfl
  · rw [State.groupBytes, hmonitor]
    cases clear <;> rfl

end Sys2Proof.Machine

/-! SUPPORT. SAMPLE payloads (R105, R182), and an accepted frame that orders no void (R45, R101, R106 to R109). -/

namespace Sys2Proof.Machine

/-! SAMPLE payloads. -/

/-- A signed two-byte field is its number, less 65536 from 32768 on (10). -/
theorem int2_eq (hi lo : Byte) :
    int2 hi lo = if nat2 hi lo < 32768 then (nat2 hi lo : Int) else nat2 hi lo - 65536 := by
  have hlt := nat2_lt hi lo
  rw [int2, half2, BitVec.toInt_eq_toNat_cond, BitVec.toNat_ofNat, Nat.mod_eq_of_lt hlt]
  split <;> split <;> omega

/-- The channels named are those whose bit is set, in ascending order (R182). -/
theorem channelsOf_eq (hi lo : Byte) : channelsOf (half2 hi lo) =
    (List.finRange 16).filter fun ch => (nat2 hi lo).testBit ch.val := by
  have hall : allChannels = List.finRange 16 := by decide
  rw [channelsOf, hall]
  refine List.filter_congr fun ch _ => ?_
  rw [half2, BitVec.getLsbD_ofNat, decide_eq_true ch.isLt, Bool.true_and]

/-- The number of the two bytes at a place of a payload (10). -/
def numberAt (bytes : List Byte) (k : Nat) : Nat := nat2 (bytes.getD k 0) (bytes.getD (k + 1) 0)

/-- The signed number of the two bytes at a place of a payload (10). -/
def signedAt (bytes : List Byte) (k : Nat) : Int := int2 (bytes.getD k 0) (bytes.getD (k + 1) 0)

/-- The `k`-th channel named has the `k`-th four bytes (R182). -/
theorem readSampleEntries_eq (named : List ChannelId) (bytes : List Byte) (h : bytes.length = 4 * named.length) :
    readSampleEntries named bytes =
      named.zipIdx.map fun entry => (entry.1, ⟨signedAt bytes (4 * entry.2), numberAt bytes (4 * entry.2 + 2)⟩) := by
  induction named generalizing bytes with
  | nil => rfl
  | cons ch named ih =>
    match bytes, h with
    | c₁ :: c₀ :: v₁ :: v₀ :: bytes, h =>
      have hrest : bytes.length = 4 * named.length := by simp at h; omega
      rw [readSampleEntries, ih bytes hrest, List.zipIdx_cons, List.zipIdx_succ, List.map_cons, List.map_map]
      rfl

/-- A payload behind its first six bytes is well formed by its length alone (R105, R182). -/
theorem readSample_iff (i₁ i₀ s₁ s₀ c₁ c₀ : Byte) (bytes : List Byte) (m : Sample) :
    readSample (i₁ :: i₀ :: s₁ :: s₀ :: c₁ :: c₀ :: bytes) = some m ↔
      bytes.length = 4 * (channelsOf (half2 c₁ c₀)).length ∧ m.index = half2 i₁ i₀ ∧ m.supply = nat2 s₁ s₀ ∧
        m.entries = (channelsOf (half2 c₁ c₀)).zipIdx.map fun entry =>
          (entry.1, ⟨signedAt bytes (4 * entry.2), numberAt bytes (4 * entry.2 + 2)⟩) := by
  rw [readSample]
  by_cases hlength : bytes.length = 4 * (channelsOf (half2 c₁ c₀)).length
  · rw [if_pos hlength, readSampleEntries_eq _ _ hlength]
    cases m
    simp [hlength, eq_comm]
  · simp [hlength]

/-- Every well-formed payload has its first six bytes (R105). -/
theorem readSample_header {payload : List Byte} {m : Sample} (h : readSample payload = some m) :
    ∃ (i₁ i₀ s₁ s₀ c₁ c₀ : Byte) (bytes : List Byte),
      payload = i₁ :: i₀ :: s₁ :: s₀ :: c₁ :: c₀ :: bytes := by
  unfold readSample at h
  split at h
  · exact ⟨_, _, _, _, _, _, _, rfl⟩
  · cases h

/-- A SAMPLE frame names no channel twice (R182). -/
theorem readSample_nodup {payload : List Byte} {m : Sample} (h : readSample payload = some m) :
    (m.entries.map Prod.fst).Nodup := by
  obtain ⟨i₁, i₀, s₁, s₀, c₁, c₀, bytes, rfl⟩ := readSample_header h
  obtain ⟨_, _, _, hentries⟩ := (readSample_iff _ _ _ _ _ _ _ _).1 h
  have hnamed : m.entries.map Prod.fst = channelsOf (half2 c₁ c₀) := by
    rw [hentries, List.map_map]
    exact List.zipIdx_map_fst ..
  rw [hnamed]
  exact nodup_allChannels.filter _

/-- With no key twice, what a key finds is what stands beside it. -/
theorem lookup_eq_some_iff_mem {α β : Type} [BEq α] [LawfulBEq α] {l : List (α × β)} (h : (l.map Prod.fst).Nodup)
    (a : α) (b : β) : l.lookup a = some b ↔ (a, b) ∈ l := by
  induction l with
  | nil => simp
  | cons p l ih =>
    obtain ⟨a', b'⟩ := p
    obtain ⟨hfresh, hrest⟩ := List.nodup_cons.1 h
    rw [List.lookup_cons, List.mem_cons, Prod.mk.injEq]
    by_cases heq : a = a'
    · subst heq
      have hnot : (a, b) ∉ l := fun hm => hfresh (List.mem_map.2 ⟨_, hm, rfl⟩)
      simp [hnot, eq_comm]
    · rw [beq_false_of_ne heq, ih hrest]
      simp [heq]

/-! A frame that orders no void. -/

section
variable {s : State}

/-- The record of a supply that does not fall (R109). -/
theorem State.changeSupply_holds {supply : Nat} (h : ¬s.SupplyFalls supply) : s.changeSupply supply =
    { s with
      observer := { s.observer with supply := if s.SupplyReturns supply then .ok else s.observer.supply }
      report := s.report.hand (if s.SupplyReturns supply then [.supplyOk supply] else []) } := by
  rw [State.changeSupply, State.supplyAfter, State.supplyRecords, if_neg h, if_neg h]
  rfl

/-- An accepted frame that orders no void: the reference, the supply, then every context's own turn (R45, R106 to R109).
-/
theorem State.observeSample_tracks {m : Sample} (href : s.observer.reference ≠ some m.index)
    (hresync : ¬s.Resyncs m.index) (hfalls : ¬s.SupplyFalls m.supply) : ∃ channels : Vector Channel 16,
      s.observeSample m =
        { s with
          observer :=
            { s.observer with
              reference := some m.index
              supply := if s.SupplyReturns m.supply then .ok else s.observer.supply }
          channels
          report :=
            allChannels.foldl (fun q ch => q.hand ((s.channel ch).handleFrame ch m.index (m.entry? ch)).2)
              (s.report.hand (if s.SupplyReturns m.supply then [.supplyOk m.supply] else [])) } ∧
      ∀ ch : ChannelId, channels[ch.val] = ((s.channel ch).handleFrame ch m.index (m.entry? ch)).1 := by
  have hreferred : ¬(s.referTo m.index).SupplyFalls m.supply := hfalls
  rw [State.observeSample_accepts href hresync, State.acceptSample_eq, State.evaluateSupply_holds hreferred,
    State.changeSupply_holds hreferred]
  exact State.trackFrame_spec _ m

end

/-- Settles O17: the layout byte by byte; then, behind the sign of life, the reference, the supply and every context's
own turn. -/
theorem acceptedFrameHandlesEachChannel : Obligations.AcceptedFrameHandlesEachChannel := by
  refine ⟨fun payload m => ⟨fun h => ?_, ?_⟩, fun payload m hm ch entry =>
    lookup_eq_some_iff_mem (readSample_nodup hm) ch entry, ?_⟩
  · obtain ⟨i₁, i₀, s₁, s₀, c₁, c₀, bytes, rfl⟩ := readSample_header h
    rw [readSample_iff, channelsOf_eq] at h
    simp only [signedAt, int2_eq] at h
    exact ⟨i₁, i₀, s₁, s₀, c₁, c₀, bytes, rfl, h⟩
  · rintro ⟨i₁, i₀, s₁, s₀, c₁, c₀, bytes, rfl, h⟩
    rw [readSample_iff, channelsOf_eq]
    simp only [signedAt, int2_eq]
    exact h
  · intro s bytes f m hup hf hk hm hindex hsupply returns
    have hnear : ∀ r, s.observer.reference = some r → 1 ≤ (m.index - r).toNat ∧ (m.index - r).toNat ≤ 32767 := by
      intro r hr
      rcases hindex with hnone | ⟨r', hr', hdistance⟩
      · simp [hnone] at hr
      · rwa [Option.some.inj (hr.symm.trans hr')]
    have href : s.observer.reference ≠ some m.index := fun heq => by
      have hzero := (hnear _ heq).1
      simp at hzero
    have hresync : ¬s.Resyncs m.index := fun ⟨r, hr, hfar⟩ => by
      have hbelow := (hnear r hr).2
      omega
    have hfalls : ¬s.SupplyFalls m.supply := fun ⟨hok, hne, hlt⟩ => by
      have hholds := hsupply hok
      omega
    obtain ⟨channels, hobserved, hch⟩ :=
      State.observeSample_tracks (s := s.signOfLife.countReceivedD) href hresync hfalls
    refine ⟨_, execDPortReceipt_valid s hup hf, ?_⟩
    rw [State.classifyD_sample hk hm, hobserved, State.offerUfq_eq]
    exact ⟨rfl, hch, rfl, rfl, rfl, rfl⟩

end Sys2Proof.Machine

/-! SUPPORT. The report queue and its sink (R116 to R136): the blocks hand groups of records to it, and what else acts
on it keeps its places, its numbers, its timer and its sender sound. -/

namespace Sys2Proof.Machine

/-! The sender of the queue. -/

theorem ReportQueue.settleLoss_sender (q : ReportQueue) : q.settleLoss.sender = q.sender := by
  rw [ReportQueue.settleLoss_frame]

/-- The retransmit expiry leaves the sender as it is, or stalls it (R127, R128). -/
theorem ReportQueue.expire_sender (q : ReportQueue) (ms : Nat) :
    (q.expire ms).sender = if q.retryCount < 5 then q.sender else .stalled := by
  unfold ReportQueue.expire
  split <;> rw [ReportQueue.settleLoss_sender]

/-- The retransmit timer never runs without a sink (R122, R126). -/
theorem ReportQueue.Sound.sender_of_timer {q : ReportQueue} (h : q.Sound) (hr : q.retransmitTimer.isSome) :
    q.sender ≠ .noSink := fun hsender => by
  obtain ⟨_, _, ⟨_, hstopped⟩, _⟩ := h
  simp [hstopped (by simp [hsender])] at hr

/-- A tick takes one tick off the retransmit timer, and stops none (R126, R179). -/
theorem ReportQueue.Sound.tick {q : ReportQueue} (h : q.Sound) :
    ReportQueue.Sound { q with retransmitTimer := q.retransmitTimer.map (· - 1) } := by
  obtain ⟨hbounded, hnumbered, ⟨hready, hstopped⟩, hcoalesced⟩ := h
  refine ⟨hbounded, hnumbered, ⟨fun hr => ?_, fun hne => ?_⟩, hcoalesced⟩
  · rw [Option.isSome_map]
    exact hready hr
  · rw [hstopped hne, Option.map_none]

theorem ReportQueue.reset_sound : ReportQueue.reset.Sound := by
  refine ⟨⟨?_, ?_, ?_, ?_, ?_, ?_⟩, rfl, ⟨nofun, fun _ => rfl⟩, .nil⟩ <;> decide

/-! Records handed. -/

section
variable {s t : State}

/-- The queue is sound by itself, and its sender is in NO_SINK exactly without a sink (R122). -/
theorem State.reportSound_iff : s.ReportSound ↔
    s.report.Sound ∧ (s.report.sender = .noSink ↔ s.active.policy.sinkAddress = 0x00#8) := by
  simp only [State.ReportSound, ReportQueue.Sound, and_assoc]

/-- A sink that is set anew, with the sender that it asks for, goes with a sound queue (R122). -/
theorem State.ReportSound.of_sink (hq : t.report.Sound)
    (hsender : t.report.sender = if t.active.policy.sinkAddress = 0x00#8 then .noSink else .ready) :
    t.ReportSound := by
  refine State.reportSound_iff.2 ⟨hq, ?_⟩
  rw [hsender]
  split <;> simp [*]

/-- Groups of records handed under the same sink keep the queue sound, whatever happens elsewhere (R117). -/
theorem State.ReportSound.handed (hs : s.ReportSound) (groups : List (List Record))
    (h : (t.report, t.active.policy.sinkAddress) = (s.report.handAll groups, s.active.policy.sinkAddress)) :
    t.ReportSound := by
  obtain ⟨hreport, hsink⟩ := by simpa only [Prod.mk.injEq] using h
  obtain ⟨hq, hsender⟩ := State.reportSound_iff.1 hs
  obtain ⟨hq', hsender'⟩ := ReportQueue.handAll_sound groups s.report hq
  rw [State.reportSound_iff, hreport, hsink, hsender']
  exact ⟨hq', hsender⟩

/-- The queue and the sink are all that its soundness reads. -/
theorem State.ReportSound.of_eq (hs : s.ReportSound)
    (h : (t.report, t.active.policy.sinkAddress) = (s.report, s.active.policy.sinkAddress)) : t.ReportSound :=
  hs.handed [] h

/-! Departures. -/

theorem State.ReportSound.leaveD (hs : s.ReportSound) : s.leaveD.ReportSound := by
  obtain ⟨_, _, _, groups, _, _, _, _, heq, _⟩ := s.leaveD_frame
  rw [heq]
  exact hs.handed groups rfl

/-- The departure of a report is that of the offered record, and no other touches the queue (R124, R170). -/
theorem State.ReportSound.leaveC (hs : s.ReportSound) : s.leaveC.ReportSound := by
  obtain ⟨_, _, _, report, _, _, heq, _, _, hreport⟩ := s.leaveC_frame
  rw [heq]
  rcases hreport with rfl | ⟨hoffer, rfl⟩
  · exact hs.of_eq rfl
  · obtain ⟨hq, hsender⟩ := State.reportSound_iff.1 hs
    obtain ⟨hq', hsender'⟩ := s.report.depart_sound s.active.policy.retransmitMs hq hoffer
    exact State.reportSound_iff.2 ⟨hq', by rw [hsender']; exact hsender⟩

theorem State.ReportSound.arbitrate (hs : s.ReportSound) : s.arbitrate.ReportSound :=
  s.arbitrate_induct State.ReportSound hs (fun _ h => h.leaveD) (fun _ h => h.leaveC) (fun _ _ h => h.of_eq rfl)
    (fun _ h => h.of_eq rfl)

/-- An event that happens under a condition, with the arbiters' acts behind it. -/
theorem State.ReportSound.arbitrate_ite (hs : s.ReportSound) (p : Prop) [Decidable p] (ht : p → t.ReportSound) :
    (if p then t.arbitrate else s).ReportSound := by
  split
  · rename_i hp
    exact (ht hp).arbitrate
  · exact hs

theorem State.ReportSound.departure (hs : s.ReportSound) {row : Instr} (hrow : row ∈ departureRows)
    (h : Machine.exec row s = .next t) : t.ReportSound := by
  rcases exec_departure s hrow with ⟨_, heq⟩ | ⟨_, heq⟩ | heq <;> rw [heq] at h <;> cases h
  · exact hs.leaveD.arbitrate
  · exact hs.leaveC.arbitrate
  · exact hs

/-! The driver's frames and silence, and the expiries. -/

theorem State.ReportSound.fallSilent (hs : s.ReportSound) : s.fallSilent.ReportSound := by
  obtain ⟨_, groups, heq⟩ := s.fallSilent_frame
  rw [heq]
  exact hs.handed groups rfl

theorem State.ReportSound.loseD (hs : s.ReportSound) : s.loseD.ReportSound := by
  have hlost : State.ReportSound { s with dPort := s.dPort.lose s.dfq.length, dfq := [] } := hs.of_eq rfl
  unfold State.loseD
  dsimp only
  split
  · exact hlost.fallSilent
  · exact hlost

theorem State.ReportSound.signOfLife (hs : s.ReportSound) : s.signOfLife.ReportSound := by
  rw [State.signOfLife_eq]
  exact hs.handed [if s.observer.activity = .silent then [.driverBack] else []] rfl

theorem State.ReportSound.observe (hs : s.ReportSound) (payload : List Byte) : (s.observe payload).ReportSound := by
  obtain ⟨_, _, _, groups, _, _, _, heq⟩ := s.observe_frame payload
  rw [heq]
  exact hs.handed groups rfl

theorem State.ReportSound.offerUfq (hs : s.ReportSound) (f : Frame) : (s.offerUfq f).ReportSound := by
  unfold State.offerUfq
  split <;> exact hs.of_eq rfl

theorem State.ReportSound.receiveD (hs : s.ReportSound) (bytes : List Byte) : (s.receiveD bytes).ReportSound := by
  have halive := hs.signOfLife
  unfold State.receiveD
  split
  · exact hs.of_eq rfl
  · exact hs.of_eq rfl
  · exact State.ReportSound.arbitrate (halive.of_eq rfl)
  · have hcounted : s.signOfLife.countReceivedD.ReportSound := halive.of_eq rfl
    refine State.ReportSound.arbitrate (State.ReportSound.offerUfq ?_ _)
    split
    · exact hcounted.observe _
    · exact hcounted

/-- The expiry of the retransmit timer keeps the queue sound: a timer that is due runs, so that a sink is set and stays
(R126, R127, R128). -/
theorem State.ReportSound.expireRetransmit (hs : s.ReportSound) (hdue : s.retransmitDue = true) :
    s.expireRetransmit.ReportSound := by
  have hruns : s.report.retransmitTimer.isSome := by
    have hpassed : s.report.retransmitTimer = some 0 := by simpa [State.retransmitDue] using hdue
    rw [hpassed]
    rfl
  obtain ⟨hq, hsender⟩ := State.reportSound_iff.1 hs
  refine State.reportSound_iff.2 ⟨s.report.expire_sound s.active.policy.retransmitMs hq hruns, ?_⟩
  rw [State.expireRetransmit_active, ← hsender, State.expireRetransmit_report, ReportQueue.expire_sender]
  have hset := hq.sender_of_timer hruns
  split <;> simp [hset]

theorem State.ReportSound.expireLease (hs : s.ReportSound) : s.expireLease.ReportSound := by
  unfold State.expireLease
  split
  · rename_i session _
    exact hs.handed [[.sessionLapsed session.holder]] rfl
  · exact hs

theorem State.ReportSound.tick (hs : s.ReportSound) : s.tick.ReportSound := by
  obtain ⟨hq, hsender⟩ := State.reportSound_iff.1 hs
  exact State.reportSound_iff.2 ⟨hq.tick, hsender⟩

theorem State.coldReset_reportSound (s : State) (straps : BitVec 3) : (s.coldReset straps).ReportSound :=
  .of_sink ReportQueue.reset_sound rfl

/-! Management requests. -/

/-- A COMMIT hands its GENERATION record to a queue whose sink has changed with the tables, or has stayed (R14, R132 to
R134). -/
theorem State.ReportSound.changeOver (hs : s.ReportSound) (shadow : Bank) : (s.changeOver shadow).ReportSound := by
  by_cases hsame : shadow.policy.sinkAddress = s.active.policy.sinkAddress
  · exact hs.handed [[.generation (nextGeneration s.generation)]] (by simp [State.changeOver, hsame])
  · obtain ⟨hq, hsender⟩ := s.report.changeSink_sound shadow.policy.sinkAddress shadow.policy.retransmitMs
      (State.reportSound_iff.1 hs).1
    have hchanged : State.ReportSound
        { s with
          active := shadow
          report := s.report.changeSink shadow.policy.sinkAddress shadow.policy.retransmitMs } := .of_sink hq hsender
    exact hchanged.handed [[.generation (nextGeneration s.generation)]] (by simp [State.changeOver, hsame])

theorem State.ReportSound.unlock (hs : s.ReportSound) (ch : ChannelId) : (s.unlock ch).ReportSound := by
  unfold State.unlock
  split
  · exact hs.handed [[.unlocked ch]] rfl
  · exact hs

/-- An acknowledgement reaches the queue only with a sink set, and leaves its sender READY (R130, R131, R157). -/
theorem State.ReportSound.doAckReports (hs : s.ReportSound) (source : Byte) (number : Half) :
    (s.doAckReports source number).state.ReportSound := by
  unfold State.doAckReports
  dsimp only
  split
  · exact hs
  · rename_i hfrom
    split
    · rename_i report hack
      have hsink : s.active.policy.sinkAddress ≠ 0x00#8 := fun h => hfrom (.inl h)
      obtain ⟨hq, hsender⟩ := State.reportSound_iff.1 hs
      obtain ⟨hq', hsender'⟩ := s.report.acknowledge_sound number s.active.policy.retransmitMs hq
        (fun h => hsink (hsender.1 h)) hack
      exact .of_sink hq' (by rw [hsender']; exact (if_neg hsink).symm)
    · exact hs.of_eq rfl

/-- A warm restart leaves one record and the sender that the sink asks for (R136). -/
theorem State.restart_reportSound (s : State) : s.restart.ReportSound := by
  obtain ⟨_, heq, _⟩ := State.restartChannels_spec { s with session := none }
  unfold State.restart
  rw [heq]
  obtain ⟨hq, hsender⟩ := ReportQueue.restart_sound s.active.policy.sinkAddress s.generation
  exact .of_sink hq hsender

/-- A request under the authority check keeps the queue sound as its act does (R147). -/
theorem State.ReportSound.underSession (hs : s.ReportSound) (source : Byte) (act : Session → Reply)
    (h : ∀ held, (act held).state.ReportSound) : (s.underSession source act).state.ReportSound := by
  rcases s.underSession_cases source act with ⟨_, heq⟩ | ⟨_, _, _, heq⟩ | ⟨held, _, _, heq⟩ <;> rw [heq]
  · exact hs
  · exact hs
  · exact h held

theorem State.ReportSound.perform (hs : s.ReportSound) (source : Byte) (r : Request) :
    (s.perform source r).state.ReportSound := by
  have hsame : ∀ {t : State}, t = s → t.ReportSound := fun h => h ▸ hs
  cases r with
  | identify => exact hs
  | readChannel channel =>
    change (s.doReadChannel channel).state.ReportSound
    unfold State.doReadChannel
    split <;> exact hs
  | readProfile bank slot =>
    refine hsame (s.readBank_state source bank _ fun b => ?_)
    split <;> rfl
  | readMap bank | readPolicy bank => exact hsame (s.readBank_state source bank _ fun b => rfl)
  | readCounters group clear => cases clear <;> cases group <;> exact hs.of_eq rfl
  | openSession =>
    change (s.doOpenSession source).state.ReportSound
    unfold State.doOpenSession
    split
    · exact hs.of_eq rfl
    · split <;> exact hs
  | writeProfile slot p =>
    refine hs.underSession source _ fun held => ?_
    split
    · exact hs
    · split <;> exact hs.of_eq rfl
  | clearProfile _ | writeMap _ | writePolicy _ =>
    refine hs.underSession source _ fun held => ?_
    split <;> exact hs.of_eq rfl
  | commit =>
    refine hs.underSession source _ fun held => ?_
    split
    · exact hs
    · exact hs.changeOver held.shadow
  | closeSession => exact hs.underSession source _ fun _ => hs.of_eq rfl
  | unlockChannel channel =>
    refine hs.underSession source _ fun held => ?_
    split
    · exact hs
    · exact hs.unlock _
  | ackReports number => exact hs.doAckReports source number
  | warmRestart => exact hs.underSession source _ fun _ => s.restart_reportSound

theorem State.ReportSound.executeRequest (hs : s.ReportSound) (source tag kind : Byte) (request : Option Request) :
    (s.executeRequest source tag kind request).ReportSound := by
  have hcounted : State.ReportSound
      { s with monitor := { s.monitor with requestExecuted := s.monitor.requestExecuted + 1 } } := hs.of_eq rfl
  have hfinish : ∀ r : Reply, r.state.ReportSound → (r.finish source tag kind).ReportSound := fun r hr => by
    rw [Reply.finish_eq]
    exact hr.of_eq rfl
  refine hfinish _ ?_
  cases request with
  | none => exact hcounted
  | some r => exact hcounted.perform source r

theorem State.ReportSound.manage (hs : s.ReportSound) (source tag kind : Byte) (request : Option Request) :
    (s.manage source tag kind request).ReportSound := by
  rcases s.manage_cases source tag kind request with ⟨e, _, heq⟩ | ⟨_, _, heq⟩ | ⟨_, _, heq⟩ <;> rw [heq]
  · unfold State.replay
    split <;> exact hs.of_eq rfl
  · exact hs.of_eq rfl
  · exact hs.executeRequest source tag kind request

theorem State.ReportSound.receiveRequest (hs : s.ReportSound) (source tag : Byte) (r : Request) :
    (s.receiveRequest source tag r).ReportSound := by
  have hcounted : s.countReceivedC.ReportSound := hs.of_eq rfl
  exact hs.arbitrate_ite _ fun _ => hcounted.manage source tag _ _

/-! Commands and steps. -/

theorem State.ReportSound.classifyC (hs : s.ReportSound) (f : Frame) : (s.classifyC f).ReportSound := by
  unfold State.classifyC
  split
  · split
    · exact hs.manage _ _ _ _
    · exact hs.of_eq rfl
  · unfold State.offerDfq
    split <;> exact hs.of_eq rfl

theorem State.ReportSound.receiveC (hs : s.ReportSound) (bytes : List Byte) : (s.receiveC bytes).ReportSound := by
  have hcounted : s.countReceivedC.ReportSound := hs.of_eq rfl
  unfold State.receiveC
  split
  · exact hs.of_eq rfl
  · exact hs.of_eq rfl
  · exact hs.of_eq rfl
  · exact (hcounted.classifyC _).arbitrate

/-- Every command keeps the report queue sound. -/
theorem State.ReportSound.exec (hs : s.ReportSound) (i : Instr) (h : Machine.exec i s = .next t) : t.ReportSound := by
  cases hr : i.request? with
  | some held =>
    obtain ⟨source, tag, r⟩ := held
    rw [exec_request s hr] at h
    cases h
    exact hs.receiveRequest source tag r
  | none =>
    cases i with
    | coldReset straps => cases h; exact s.coldReset_reportSound straps
    | linkLossD => cases h; exact hs.arbitrate_ite _ fun _ => hs.loseD
    | linkLossC => cases h; exact hs.arbitrate_ite _ fun _ => hs.of_eq rfl
    | linkReturn port => cases h; cases port <;> exact State.ReportSound.arbitrate (hs.of_eq rfl)
    | cPortReceipt bytes =>
      cases h
      split
      · exact hs.receiveC bytes
      · exact hs
    | dPortReceipt bytes =>
      cases h
      split
      · exact hs.receiveD bytes
      · exact hs
    | transmissionComplete port => cases h; cases port <;> exact hs.arbitrate_ite _ fun _ => hs.of_eq rfl
    | silenceExpiry => cases h; exact hs.arbitrate_ite _ fun _ => hs.fallSilent
    | retransmitExpiry => cases h; exact hs.arbitrate_ite _ hs.expireRetransmit
    | leaseExpiry => cases h; exact hs.arbitrate_ite _ fun _ => hs.expireLease
    | judgedDeparture | dPortDeparture | injectedDeparture | responseDeparture | reportDeparture | ufqDeparture =>
      exact hs.departure (by decide) h
    | _ => simp [Instr.request?] at hr

/-- Settles O52: the blocks hand records, and a departure, an expiry, an acknowledgement, a changed sink and a restart
each keep the queue sound, so that every command and tick does. -/
theorem stepKeepsReportSound : Obligations.StepKeepsReportSound := by
  intro s t hs h
  unfold step at h
  split at h
  · rcases s.idle_cases with heq | ⟨i, _, n, heq⟩ <;> rw [heq] at h
    · cases h
      exact hs.tick
    · have hcounted : State.ReportSound { s with freeCount := n } := hs.of_eq rfl
      exact hcounted.exec i h
  · rename_i i rest _
    have htaken : State.ReportSound { s with pending := rest } := hs.of_eq rfl
    exact htaken.exec i h

end

end Sys2Proof.Machine

/-! SUPPORT. Records handed to the report queue: where each finds its place, and what a full queue loses (R117 to R121,
R186). -/

namespace Sys2Proof.Machine

/-! Coalescing and eviction. -/

/-- What coalesces is two BLOCKED records of a channel, or two MALFORMED ones (R119). -/
theorem Record.coalesces_iff (a b : Record) : a.coalesces b = true ↔
    (∃ ch j k, b = .blocked ch k ∧ a = .blocked ch j) ∨ ∃ j k, b = .malformed k ∧ a = .malformed j := by
  cases a <;> cases b <;> simp [Record.coalesces]

/-- A record coalesces with none of a list that holds no BLOCKED record of its channel and no MALFORMED one, as its kind
asks (R119). -/
theorem Record.coalesces_none {r : Record} {l : List Record}
    (hblocked : ∀ ch n, r = .blocked ch n → ∀ k, Record.blocked ch k ∉ l)
    (hmalformed : ∀ n, r = .malformed n → ∀ k, Record.malformed k ∉ l) : ∀ x ∈ l, r.coalesces x = false := by
  intro x hx
  by_contra hc
  rcases (r.coalesces_iff x).1 (by simpa using hc) with ⟨ch, j, k, rfl, hr⟩ | ⟨j, k, rfl, hr⟩
  · exact hblocked ch j hr k hx
  · exact hmalformed j hr k hx

/-- The first record that the handed one coalesces with has its count raised, in its place (R119). -/
theorem coalesceInto_append {r x : Record} {before : List Record} (after : List Record)
    (hbefore : ∀ y ∈ before, r.coalesces y = false) (hx : r.coalesces x = true) :
    coalesceInto r (before ++ x :: after) = some (before ++ x.raise :: after) := by
  induction before with
  | nil => simp [coalesceInto, hx]
  | cons y before ih =>
    obtain ⟨hy, hbefore⟩ := List.forall_mem_cons.1 hbefore
    simp [coalesceInto, hy, ih hbefore]

theorem coalesceInto_eq_none {r : Record} {l : List Record} (h : ∀ x ∈ l, r.coalesces x = false) :
    coalesceInto r l = none := by
  induction l with
  | nil => rfl
  | cons x l ih =>
    obtain ⟨hx, hl⟩ := List.forall_mem_cons.1 h
    simp [coalesceInto, hx, ih hl]

/-- The oldest PASS VERDICT is the one that leaves (R120). -/
theorem evictPass_append {pass : Record} {before : List Record} (after : List Record)
    (hbefore : ∀ x ∈ before, x.isPass = false) (hpass : pass.isPass = true) :
    evictPass (before ++ pass :: after) = some (before ++ after) := by
  induction before with
  | nil => simp [evictPass, hpass]
  | cons y before ih =>
    obtain ⟨hy, hbefore⟩ := List.forall_mem_cons.1 hbefore
    simp [evictPass, hy, ih hbefore]

theorem evictPass_eq_none {l : List Record} (h : ∀ x ∈ l, x.isPass = false) : evictPass l = none := by
  induction l with
  | nil => rfl
  | cons x l ih =>
    obtain ⟨hx, hl⟩ := List.forall_mem_cons.1 h
    simp [evictPass, hx, ih hl]

/-! Placing one record. -/

section
variable {q : ReportQueue}

theorem ReportQueue.place_coalesces {r : Record} {unsent : List Record} (h : coalesceInto r q.unsent = some unsent) :
    q.place r = { q with unsent } := by
  simp [ReportQueue.place, h]

/-- A record that coalesces with none takes a free place at the back (R118, R119). -/
theorem ReportQueue.place_back {r : Record} (h : ∀ x ∈ q.unsent, r.coalesces x = false)
    (ht : q.total < queueCapacity) : q.place r = { q with unsent := q.unsent ++ [r] } := by
  simp [ReportQueue.place, coalesceInto_eq_none h, ht]

/-- In a full queue it takes the place of the oldest PASS VERDICT, whose loss is counted (R120, R186). -/
theorem ReportQueue.place_evicts {r : Record} (h : ∀ x ∈ q.unsent, r.coalesces x = false)
    (ht : queueCapacity ≤ q.total) {unsent : List Record} (he : evictPass q.unsent = some unsent) :
    q.place r = { q with unsent := unsent ++ [r], lossCount := min 65535 (q.lossCount + 1) } := by
  simp [ReportQueue.place, coalesceInto_eq_none h, ht.not_gt, he, ReportQueue.countLoss]

/-- With no PASS VERDICT to evict it is discarded, and its own loss is counted (R120). -/
theorem ReportQueue.place_discards {r : Record} (h : ∀ x ∈ q.unsent, r.coalesces x = false)
    (ht : queueCapacity ≤ q.total) (he : evictPass q.unsent = none) :
    q.place r = { q with lossCount := min 65535 (q.lossCount + 1) } := by
  simp [ReportQueue.place, coalesceInto_eq_none h, ht.not_gt, he, ReportQueue.countLoss]

/-- What placing a record makes of the places and the losses: it takes a free place and loses nothing, or it keeps the
number of records, and loses one only where no place is free (R118, R120). -/
theorem ReportQueue.place_total (q : ReportQueue) (r : Record) :
    q.total < queueCapacity ∧ (q.place r).total = q.total + 1 ∧ (q.place r).lossCount = q.lossCount ∨
    (q.place r).total = q.total ∧ ((q.place r).lossCount = q.lossCount ∨ queueCapacity ≤ q.total) := by
  rcases q.place_cases r with ⟨u, hc, h⟩ | ⟨_, ht, h⟩ | ⟨_, ht, u, he, h⟩ | ⟨_, ht, _, h⟩ <;> rw [h]
  · obtain ⟨pre, x, post, hl, rfl, _⟩ := coalesceInto_some hc
    exact .inr ⟨by simp [ReportQueue.total, hl], .inl rfl⟩
  · exact .inl ⟨ht, by simp [ReportQueue.total, Nat.add_assoc], rfl⟩
  · obtain ⟨pre, x, post, hl, rfl, _⟩ := evictPass_some he
    exact .inr ⟨by simp [ReportQueue.total, ReportQueue.countLoss, hl], .inr ht⟩
  · exact .inr ⟨rfl, .inr ht⟩

/-- Placing a record takes none away but a PASS VERDICT, and changes none but the counts of BLOCKED and MALFORMED (R119,
R120). -/
theorem ReportQueue.place_keeps (q : ReportQueue) (r : Record) {x : Record} (hx : x ∈ q.unsent)
    (hpass : x.isPass = false) (hblocked : ∀ ch n, x ≠ .blocked ch n) (hmalformed : ∀ n, x ≠ .malformed n) :
    x ∈ (q.place r).unsent := by
  rcases q.place_cases r with ⟨u, hc, h⟩ | ⟨_, _, h⟩ | ⟨_, _, u, he, h⟩ | ⟨_, _, _, h⟩ <;> rw [h]
  · obtain ⟨pre, y, post, hl, rfl, hy⟩ := coalesceInto_some hc
    have hne : x ≠ y := fun hxy => by
      rw [Record.coalesces_comm, ← hxy, Record.coalesces_false x r hblocked hmalformed] at hy
      cases hy
    simp only [hl, List.mem_append, List.mem_cons] at hx ⊢
    exact hx.imp_right fun hx => .inr (hx.resolve_left hne)
  · exact List.mem_append_left _ hx
  · obtain ⟨pre, y, post, hl, rfl, hy⟩ := evictPass_some he
    have hne : x ≠ y := fun hxy => by
      rw [← hxy, hpass] at hy
      cases hy
    simp only [hl, List.mem_append, List.mem_cons] at hx ⊢
    exact .inl (hx.imp_right fun hx => hx.resolve_left hne)
  · exact hx

/-! Handing a group. -/

/-- What each placing and the check for losses keep, handing a group keeps (R117). -/
theorem ReportQueue.hand_induct (P : ReportQueue → Prop) (hplace : ∀ q r, P q → P (q.place r))
    (hsettle : ∀ q, P q → P q.settleLoss) (records : List Record) (h : P q) : P (q.hand records) := by
  have hfold : ∀ (l : List Record) (q : ReportQueue), P q → P (l.foldl ReportQueue.place q) := by
    intro l
    induction l with
    | nil => exact fun _ => id
    | cons r l ih => exact fun q h => ih _ (hplace q r h)
  cases records with
  | nil => exact h
  | cons r l => exact hsettle _ (hfold (r :: l) q h)

theorem ReportQueue.hand_keeps (records : List Record) {x : Record} (hx : x ∈ q.unsent)
    (hpass : x.isPass = false) (hblocked : ∀ ch n, x ≠ .blocked ch n) (hmalformed : ∀ n, x ≠ .malformed n) :
    x ∈ (q.hand records).unsent := by
  refine ReportQueue.hand_induct (x ∈ ·.unsent) (fun q r h => q.place_keeps r h hpass hblocked hmalformed)
    (fun q h => ?_) records hx
  rcases q.settleLoss_cases with ⟨_, _, heq⟩ | ⟨_, heq⟩ <;> rw [heq]
  · exact List.mem_append_left _ h
  · exact h

/-- Handing records never takes the queue beyond its places (R118). -/
theorem ReportQueue.hand_total (records : List Record) (h : q.total ≤ queueCapacity) :
    (q.hand records).total ≤ queueCapacity := by
  refine ReportQueue.hand_induct (·.total ≤ queueCapacity) (fun q r h => ?_) (fun q h => ?_) records h
  · rcases q.place_total r with ⟨ht, heq, _⟩ | ⟨heq, _⟩ <;> omega
  · rcases q.settleLoss_cases with ⟨_, ht, heq⟩ | ⟨_, heq⟩ <;> rw [heq]
    · simp only [ReportQueue.total, List.length_append, List.length_singleton] at ht ⊢
      omega
    · exact h

/-- No loss waits for a place: none is counted, or no place is free (R121). -/
abbrev ReportQueue.Settled (q : ReportQueue) : Prop := q.lossCount = 0 ∨ queueCapacity ≤ q.total

theorem ReportQueue.Settled.place (h : q.Settled) (r : Record) : (q.place r).Settled := by
  simp only [ReportQueue.Settled] at h ⊢
  rcases q.place_total r with ⟨ht, _, hloss⟩ | ⟨ht, hloss⟩ <;> omega

theorem ReportQueue.Settled.foldl_place (records : List Record) :
    ∀ {q : ReportQueue}, q.Settled → (records.foldl ReportQueue.place q).Settled := by
  induction records with
  | nil => exact id
  | cons r l ih => exact fun h => ih (h.place r)

/-- Where no loss waits, the check behind a group finds none, so that handing a group is placing its records (R121). -/
theorem ReportQueue.Settled.hand_eq (h : q.Settled) (records : List Record) :
    q.hand records = records.foldl ReportQueue.place q := by
  cases records with
  | nil => rfl
  | cons r l => exact ReportQueue.settleLoss_settled (h.foldl_place (r :: l))

theorem ReportQueue.Settled.hand_singleton (h : q.Settled) (r : Record) : q.hand [r] = q.place r := h.hand_eq [r]

/-- A record that coalesces raises the count of the first that it coalesces with, and takes no place (R119). -/
theorem ReportQueue.Settled.hand_coalesces (h : q.Settled) {r x : Record} {before after : List Record}
    (hunsent : q.unsent = before ++ x :: after) (hbefore : ∀ y ∈ before, r.coalesces y = false)
    (hx : r.coalesces x = true) : q.hand [r] = { q with unsent := before ++ x.raise :: after } := by
  rw [h.hand_singleton, ReportQueue.place_coalesces (by rw [hunsent, coalesceInto_append after hbefore hx])]

/-- A group of records is placed one after another (R117). -/
theorem ReportQueue.Settled.hand_foldl (h : q.Settled) (records : List Record) :
    q.hand records = records.foldl (fun q r => q.hand [r]) q := by
  rw [h.hand_eq]
  induction records generalizing q with
  | nil => rfl
  | cons r l ih => rw [List.foldl_cons, List.foldl_cons, h.hand_singleton, ih (h.place r)]

/-- Records that coalesce with nothing, with a place for each and no loss counted, stand at the back in their order
(R118). -/
theorem ReportQueue.hand_room (records : List Record) (hroom : q.HasRoom records.length)
    (hrecords : ∀ r ∈ records, (∀ ch n, r ≠ .blocked ch n) ∧ ∀ n, r ≠ .malformed n) :
    q.hand records = { q with unsent := q.unsent ++ records } := by
  obtain ⟨hplaces, hloss⟩ := hroom
  have hsettled : q.Settled := .inl hloss
  rw [hsettled.hand_eq]
  clear hsettled hloss
  induction records generalizing q with
  | nil => simp
  | cons r l ih =>
    obtain ⟨⟨hblocked, hmalformed⟩, hl⟩ := List.forall_mem_cons.1 hrecords
    rw [List.length_cons] at hplaces
    rw [List.foldl_cons, q.place_room r hblocked hmalformed (by omega), ih hl]
    · simp
    · simp only [ReportQueue.total, List.length_append, List.length_singleton] at hplaces ⊢
      omega

end

/-- Settles O60: handing a group is placing its records one after another, and each coalesces, takes a free place, takes
that of a PASS VERDICT, or is discarded. -/
theorem handedRecordsKeepTheQueue : Obligations.HandedRecordsKeepTheQueue := by
  intro q records
  refine ⟨⟨q.hand_window records, q.hand_cursor records, q.hand_nextSequence records, q.hand_retryCount records,
    q.hand_retransmitTimer records, q.hand_sender records, fun r hr => ReportQueue.hand_keeps records hr,
    ReportQueue.hand_total records, ReportQueue.hand_room records⟩, fun hloss => ?_⟩
  have hsettled : q.Settled := hloss.imp_right fun h => h.ge
  refine ⟨hsettled.hand_foldl records, fun ch n k before after hunsent hbefore => ?_,
    fun n k before after hunsent hbefore => ?_, fun r hblocked hmalformed => ?_⟩
  · have hnone : ∀ y ∈ before, (Record.blocked ch k).coalesces y = false :=
      Record.coalesces_none (fun _ _ hr j hj => by cases hr; exact hbefore _ hj j rfl) nofun
    exact hsettled.hand_coalesces hunsent hnone (by simp [Record.coalesces])
  · have hnone : ∀ y ∈ before, (Record.malformed k).coalesces y = false :=
      Record.coalesces_none nofun fun _ _ j hj => hbefore _ hj j rfl
    exact hsettled.hand_coalesces hunsent hnone rfl
  · have hnone := Record.coalesces_none hblocked hmalformed
    rw [hsettled.hand_singleton]
    refine ⟨ReportQueue.place_back hnone, fun pass before after hfull hunsent hpass hbefore => ?_,
      fun hfull hpass => ReportQueue.place_discards hnone hfull.ge (evictPass_eq_none hpass)⟩
    exact ReportQueue.place_evicts hnone hfull.ge (by rw [hunsent, evictPass_append after hbefore hpass])

end Sys2Proof.Machine

/-! SUPPORT. Acknowledgements (R130, R131, R157), report departures (R123 to R126), and the frames that the L16 builds
upstream (R124, R139, R180, R185). -/

namespace Sys2Proof.Machine

/-! Acknowledgements. -/

section
variable {q : ReportQueue}

/-- Where a place is free, a counted loss takes it (R121). -/
theorem ReportQueue.settleLoss_room (h : q.total < queueCapacity) :
    q.settleLoss =
      { q with
        unsent := q.unsent ++ (if q.lossCount = 0 then [] else [.loss q.lossCount])
        lossCount := 0 } := by
  by_cases hloss : q.lossCount = 0
  · rw [ReportQueue.settleLoss_settled (.inl hloss), if_pos hloss, List.append_nil, ← hloss]
  · rw [ReportQueue.settleLoss, if_pos ⟨hloss, h⟩, if_neg hloss]

/-- An acknowledgement of a record of the window: that record and all ahead of it leave, and a counted loss takes a
place that they leave free (R121, R130). -/
theorem ReportQueue.acknowledge_front {number : Half} {before after : List SentRecord} {r : Record}
    (hwindow : q.window = before ++ ⟨number, r⟩ :: after) (hbefore : ∀ sent ∈ before, sent.number ≠ number)
    (htotal : q.total ≤ queueCapacity) (ms : Nat) :
    q.acknowledge number ms = some
      { q with
        window := after
        unsent := q.unsent ++ (if q.lossCount = 0 then [] else [.loss q.lossCount])
        lossCount := 0
        cursor := q.cursor - (before.length + 1)
        retryCount := 0
        sender := if q.sender = .stalled then .ready else q.sender
        retransmitTimer := if after = [] then none else some ms } := by
  have hfind : (q.window.findIdx? fun sent => sent.number == number) = some before.length := by
    have hnone : (before.findIdx? fun sent => sent.number == number) = none := by simpa using hbefore
    simp [hwindow, List.findIdx?_append, List.findIdx?_cons, hnone]
  have hdrop : q.window.drop (before.length + 1) = after := by
    rw [hwindow, List.drop_append]
    simp
  have hroom : after.length + q.unsent.length < queueCapacity := by
    simp only [ReportQueue.total, hwindow, List.length_append, List.length_cons] at htotal
    omega
  simp only [ReportQueue.acknowledge, hfind, Option.map_some, hdrop, List.isEmpty_iff]
  exact congrArg some (ReportQueue.settleLoss_room hroom)

/-- An acknowledgement that names no record of the window finds none (R131). -/
theorem ReportQueue.acknowledge_stale {number : Half} (h : ∀ sent ∈ q.window, sent.number ≠ number) (ms : Nat) :
    q.acknowledge number ms = none := by
  have hnone : (q.window.findIdx? fun sent => sent.number == number) = none := by simpa using h
  rw [ReportQueue.acknowledge, hnone, Option.map_none]

end

section
variable (s : State)

/-- An acknowledgement from the sink reaches the queue (R130, R157). -/
theorem State.doAckReports_sink {source : Byte} (hsink : source = s.active.policy.sinkAddress) (hset : source ≠ 0x00#8)
    {number : Half} {report : ReportQueue}
    (h : s.report.acknowledge number s.active.policy.retransmitMs = some report) :
    s.doAckReports source number = State.answer { s with report } .ok [byteOf report.window.length] := by
  subst hsink
  simp [State.doAckReports, hset, h, State.answer]

/-- One that names no record of the window is STALE and counted (R131). -/
theorem State.doAckReports_stale {source : Byte} (hsink : source = s.active.policy.sinkAddress)
    (hset : source ≠ 0x00#8) {number : Half}
    (h : s.report.acknowledge number s.active.policy.retransmitMs = none) :
    s.doAckReports source number =
      State.answer { s with monitor := { s.monitor with staleAck := s.monitor.staleAck + 1 } } .stale := by
  subst hsink
  simp [State.doAckReports, hset, h, State.answer]

/-- One from elsewhere, or with no sink set, is NOT_SINK (R157). -/
theorem State.doAckReports_foreign {source : Byte}
    (h : s.active.policy.sinkAddress = 0x00#8 ∨ source ≠ s.active.policy.sinkAddress) (number : Half) :
    s.doAckReports source number = s.answer .notSink :=
  if_pos h

end

/-- Settles O40: the record that is named stands behind `before`, and a loss that was counted finds a place. -/
theorem acknowledgementRemovesTheFront : Obligations.AcknowledgementRemovesTheFront := by
  intro s source tag number before after r hd hsink hset hwindow hbefore htotal
  have hack := ReportQueue.acknowledge_front hwindow hbefore htotal s.active.policy.retransmitMs
  exact exec_answered rfl rfl hd (s.counted.doAckReports_sink hsink hset hack)

/-- Settles O41, by the source and by whether the number stands in the window. -/
theorem staleAndForeignAcknowledgements : Obligations.StaleAndForeignAcknowledgements := by
  intro s source tag number hd
  refine ⟨fun hsink hset hstale => ?_, fun hforeign => ?_⟩
  · have hack := ReportQueue.acknowledge_stale hstale s.active.policy.retransmitMs
    exact exec_answered rfl rfl hd (s.counted.doAckReports_stale hsink hset hack)
  · exact exec_answered rfl rfl hd (s.counted.doAckReports_foreign hforeign.symm number)

/-! Report departures. -/

section
variable {q : ReportQueue}

/-- What is offered stands at the cursor of a sender that is READY (R123). -/
theorem ReportQueue.offer_eq_atCursor (h : q.offer.isSome) : q.offer = q.atCursor := by
  unfold ReportQueue.offer at h ⊢
  split at h
  · rename_i hready
    rw [if_pos hready]
  · cases h

/-- Behind the window the cursor stands at the first unsent record (R123). -/
theorem ReportQueue.atCursor_unsent (hc : q.cursor = q.window.length) {r : Record} {rest : List Record}
    (hu : q.unsent = r :: rest) : q.atCursor = some (none, r) := by
  simp [ReportQueue.atCursor, hc, hu]

/-- Within the window it stands at a numbered record (R123). -/
theorem ReportQueue.atCursor_sent {number : Half} {r : Record} (h : q.window[q.cursor]? = some ⟨number, r⟩) :
    q.atCursor = some (some number, r) := by
  simp [ReportQueue.atCursor, h]

/-- The departure of an unsent record, where no loss waits for a place: it joins the window under the next number (R124,
R125, R126). -/
theorem ReportQueue.depart_unsent (hsettled : q.Settled) (hc : q.cursor = q.window.length) {r : Record}
    {rest : List Record} (hu : q.unsent = r :: rest) (ms : Nat) :
    q.depart ms =
      { q with
        window := q.window ++ [⟨q.nextSequence, r⟩]
        unsent := rest
        cursor := q.cursor + 1
        nextSequence := q.nextSequence + 1
        retransmitTimer := if q.window = [] then some ms else q.retransmitTimer } := by
  simp only [ReportQueue.depart, hc, lt_irrefl, if_false, ReportQueue.number, hu, List.isEmpty_iff]
  rw [ReportQueue.settleLoss_settled]
  simpa [ReportQueue.Settled, ReportQueue.total, hu, add_comm, add_left_comm] using hsettled

/-- The departure of a record of the window, where no loss waits for a place, moves the cursor alone (R124). -/
theorem ReportQueue.depart_sent (hsettled : q.Settled) (hc : q.cursor < q.window.length) (ms : Nat) :
    q.depart ms = { q with cursor := q.cursor + 1 } := by
  simp only [ReportQueue.depart, if_pos hc]
  exact ReportQueue.settleLoss_settled hsettled

end

/-- The row of a report departure, where it stands: the offered record departs (R124, R170). -/
theorem exec_reportDeparture {s : State} (hs : s.cStanding = some .report) {number : Option Half} {r : Record}
    (hr : s.report.atCursor = some (number, r)) :
    exec .reportDeparture s = .next (State.arbitrate
      { s with
        report := s.report.depart s.active.policy.retransmitMs
        marker := .report
        monitor := { s.monitor with reportFrame := s.monitor.reportFrame + 1 }
        cPort :=
          { s.cPort with
            sending := some (reportFrame s.ownAddress s.active.policy.sinkAddress
              (number.getD s.report.nextSequence) r) } }) := by
  obtain ⟨_, _, hwaits, _⟩ := s.cStanding_spec hs
  have hoffer : s.report.offer = some (number, r) := (ReportQueue.offer_eq_atCursor hwaits).trans hr
  have hexec : exec .reportDeparture s =
      .next (if s.cStanding = some .report then s.departReport.arbitrate else s) := rfl
  rw [hexec, if_pos hs, State.departReport, hoffer]
  rfl

/-- Settles O24, by whether the cursor stands behind the window or within it. -/
theorem reportDepartureNumbersAndAdvances : Obligations.ReportDepartureNumbersAndAdvances := by
  intro s hs hloss
  have hsettled : s.report.Settled := hloss.imp_right fun h => h.ge
  refine ⟨fun r rest hc hu => ?_, fun number r hr => ?_⟩
  · rw [exec_reportDeparture hs (ReportQueue.atCursor_unsent hc hu), ReportQueue.depart_unsent hsettled hc hu]
    rfl
  · obtain ⟨hc, _⟩ := List.getElem?_eq_some_iff.1 hr
    rw [exec_reportDeparture hs (ReportQueue.atCursor_sent hr), ReportQueue.depart_sent hsettled hc]
    rfl

/-! Frames upstream. -/

/-- A field that is left out when absent (R185). -/
theorem optionalBytes_eq {α : Type} (field : α → List Byte) (a : Option α) :
    optionalBytes field a = a.elim [] field := by
  cases a <;> rfl

/-- Settles O26, record kind by record kind, outcome by outcome and status by status. -/
theorem framesOfTheL16CarryTheirContents : Obligations.FramesOfTheL16CarryTheirContents := by
  intro own other
  constructor
  · intro number r f byte signed bit
    refine ⟨Frame.build_intact .., rfl, rfl, rfl, BitVec.toNat_ofNat .., ?_⟩
    have hpayload : f.payload = bytes2 number.toNat ++ r.code :: r.contents := rfl
    rw [hpayload]
    congr 1
    cases r with
    | verdict v =>
      simp only [Record.code, Record.contents, Verdict.bytes, Verdict.presence, flagBits_eq, optionalBytes_eq]
      cases v.outcome <;> rfl
    | _ => rfl
  · intro tag kind status results f
    refine ⟨Frame.build_intact .., rfl, rfl, rfl, rfl, ?_⟩
    cases status <;> rfl

end Sys2Proof.Machine

/-! SUPPORT. The arbiters at rest, the capacities of the frame queues and of the cache, and silent DOWN ports (R143, R145,
R163, R167 to R175). -/

namespace Sys2Proof.Machine

section
variable {s t u : State}

/-! What only gives frames up. -/

/-- The queues and the cache give up entries at most, the links stay, and a DOWN port's transmitter is left alone. -/
structure State.Drains (s t : State) : Prop where
  dfq : t.dfq <:+ s.dfq
  ufq : t.ufq <:+ s.ufq
  responses : t.responses <:+ s.responses
  cache : t.cache <:+ s.cache
  cUp : t.cPort.up = s.cPort.up
  dUp : t.dPort.up = s.dPort.up
  cSends : s.cPort.up = false → t.cPort.sending = s.cPort.sending
  dSends : s.dPort.up = false → t.dPort.sending = s.dPort.sending

theorem State.Drains.of_eq
    (h : (t.dfq, t.ufq, t.responses, t.cache, t.cPort.up, t.cPort.sending, t.dPort.up, t.dPort.sending) =
      (s.dfq, s.ufq, s.responses, s.cache, s.cPort.up, s.cPort.sending, s.dPort.up, s.dPort.sending)) :
    s.Drains t := by
  simp only [Prod.mk.injEq] at h
  obtain ⟨hdfq, hufq, hresponses, hcache, hcUp, hcSends, hdUp, hdSends⟩ := h
  exact ⟨hdfq ▸ List.suffix_refl _, hufq ▸ List.suffix_refl _, hresponses ▸ List.suffix_refl _,
    hcache ▸ List.suffix_refl _, hcUp, hdUp, fun _ => hcSends, fun _ => hdSends⟩

theorem State.Drains.trans (h : s.Drains t) (h' : t.Drains u) : s.Drains u :=
  ⟨h'.dfq.trans h.dfq, h'.ufq.trans h.ufq, h'.responses.trans h.responses, h'.cache.trans h.cache,
    h'.cUp.trans h.cUp, h'.dUp.trans h.dUp, fun hd => (h'.cSends (h.cUp.trans hd)).trans (h.cSends hd),
    fun hd => (h'.dSends (h.dUp.trans hd)).trans (h.dSends hd)⟩

/-- Nothing departs on a DOWN D-port (R163, R169). -/
theorem State.leaveD_drains (s : State) : s.Drains s.leaveD := by
  cases hup : s.dPort.up with
  | false =>
    have hstays : s.leaveD = s := by rw [State.leaveD, s.dStanding_blocked (.inl hup)]
    rw [hstays]
    exact .of_eq rfl
  | true =>
    obtain ⟨_, _, _, _, _, _, _, _, heq, hdfq, _⟩ := s.leaveD_frame
    rw [heq]
    exact ⟨hdfq, List.suffix_refl _, List.suffix_refl _, List.suffix_refl _, rfl, rfl, fun _ => rfl,
      fun hd => absurd (hup.symm.trans hd) (by decide)⟩

/-- Nothing departs on a DOWN C-port (R163, R171). -/
theorem State.leaveC_drains (s : State) : s.Drains s.leaveC := by
  cases hup : s.cPort.up with
  | false =>
    have hstays : s.leaveC = s := by rw [State.leaveC, s.cStanding_blocked (.inl hup)]
    rw [hstays]
    exact .of_eq rfl
  | true =>
    obtain ⟨_, _, _, _, _, _, heq, hresponses, hufq, _⟩ := s.leaveC_frame
    rw [heq]
    exact ⟨List.suffix_refl _, hufq, hresponses, List.suffix_refl _, rfl, rfl,
      fun hd => absurd (hup.symm.trans hd) (by decide), fun _ => rfl⟩

theorem State.arbitrate_drains (s : State) : s.Drains s.arbitrate :=
  s.arbitrate_induct s.Drains (.of_eq rfl) (fun t h => h.trans t.leaveD_drains) (fun t h => h.trans t.leaveC_drains)
    (fun _ _ h => h.trans (.of_eq rfl)) (fun _ h => h.trans (.of_eq rfl))

theorem State.fallSilent_drains (s : State) : s.Drains s.fallSilent := by
  obtain ⟨_, _, heq⟩ := s.fallSilent_frame
  rw [heq]
  exact .of_eq rfl

theorem State.observe_drains (s : State) (payload : List Byte) : s.Drains (s.observe payload) := by
  obtain ⟨_, _, _, _, _, _, _, heq⟩ := s.observe_frame payload
  rw [heq]
  exact .of_eq rfl

theorem State.expireLease_drains (s : State) : s.Drains s.expireLease := by
  unfold State.expireLease
  split <;> exact .of_eq rfl

theorem State.unlock_drains (s : State) (ch : ChannelId) : s.Drains (s.unlock ch) := by
  unfold State.unlock
  split <;> exact .of_eq rfl

/-- A warm restart empties the response queue and the cache (R160). -/
theorem State.restart_drains (s : State) : s.Drains s.restart := by
  obtain ⟨_, heq, _⟩ := State.restartChannels_spec { s with session := none }
  unfold State.restart
  rw [heq]
  exact ⟨List.suffix_refl _, List.suffix_refl _, List.nil_suffix, List.nil_suffix, rfl, rfl, fun _ => rfl, fun _ => rfl⟩

theorem State.underSession_drains (s : State) (source : Byte) (act : Session → Reply)
    (h : ∀ held, s.Drains (act held).state) : s.Drains (s.underSession source act).state := by
  rcases s.underSession_cases source act with ⟨_, heq⟩ | ⟨_, _, _, heq⟩ | ⟨held, _, _, heq⟩ <;> rw [heq]
  · exact .of_eq rfl
  · exact .of_eq rfl
  · exact h held

/-- No request's performance queues or caches a frame (R146 to R160). -/
theorem State.perform_drains (s : State) (source : Byte) (r : Request) : s.Drains (s.perform source r).state := by
  have hsame : ∀ {t : State}, t = s → s.Drains t := fun h => h ▸ .of_eq rfl
  cases r with
  | identify => exact .of_eq rfl
  | readChannel channel =>
    change s.Drains (s.doReadChannel channel).state
    unfold State.doReadChannel
    split <;> exact .of_eq rfl
  | readProfile bank slot =>
    refine hsame (s.readBank_state source bank _ fun b => ?_)
    split <;> rfl
  | readMap bank | readPolicy bank => exact hsame (s.readBank_state source bank _ fun b => rfl)
  | readCounters group clear => cases clear <;> cases group <;> exact .of_eq rfl
  | openSession =>
    change s.Drains (s.doOpenSession source).state
    unfold State.doOpenSession
    split
    · exact .of_eq rfl
    · split <;> exact .of_eq rfl
  | writeProfile slot p =>
    refine s.underSession_drains source _ fun held => ?_
    split
    · exact .of_eq rfl
    · split <;> exact .of_eq rfl
  | clearProfile _ | writeMap _ | writePolicy _ | commit =>
    refine s.underSession_drains source _ fun held => ?_
    split <;> exact .of_eq rfl
  | closeSession => exact s.underSession_drains source _ fun _ => .of_eq rfl
  | unlockChannel channel =>
    refine s.underSession_drains source _ fun held => ?_
    split
    · exact .of_eq rfl
    · exact s.unlock_drains _
  | ackReports number =>
    change s.Drains (s.doAckReports source number).state
    unfold State.doAckReports
    dsimp only
    split
    · exact .of_eq rfl
    · split <;> exact .of_eq rfl
  | warmRestart => exact s.underSession_drains source _ fun _ => s.restart_drains

/-! Capacities and silent ports. -/

/-- The queues and the cache within their capacities, and DOWN ports silent (R143, R145, R163, R167, R175). -/
abbrev State.QueuesSound (s : State) : Prop := s.QueuesBounded ∧ s.PortsSound

theorem State.Drains.sound (h : s.Drains t) (hs : s.QueuesSound) : t.QueuesSound := by
  obtain ⟨⟨hdfq, hufq, hresponses, hcache, hsources⟩, hc, hd⟩ := hs
  refine ⟨⟨h.dfq.length_le.trans hdfq, h.ufq.length_le.trans hufq, h.responses.length_le.trans hresponses,
    h.cache.length_le.trans hcache, hsources.sublist (h.cache.sublist.map _)⟩, fun hdown => ?_, fun hdown => ?_⟩
  · have hdown' := h.cUp.symm.trans hdown
    obtain ⟨hsends, hempty⟩ := hc hdown'
    exact ⟨(h.cSends hdown').trans hsends, List.suffix_nil.1 (hempty ▸ h.responses)⟩
  · have hdown' := h.dUp.symm.trans hdown
    exact (h.dSends hdown').trans (hd hdown')

theorem State.QueuesSound.of_eq (hs : s.QueuesSound)
    (h : (t.dfq, t.ufq, t.responses, t.cache, t.cPort.up, t.cPort.sending, t.dPort.up, t.dPort.sending) =
      (s.dfq, s.ufq, s.responses, s.cache, s.cPort.up, s.cPort.sending, s.dPort.up, s.dPort.sending)) :
    t.QueuesSound := (State.Drains.of_eq h).sound hs

theorem State.QueuesSound.offerDfq (hs : s.QueuesSound) (f : Frame) : (s.offerDfq f).QueuesSound := by
  unfold State.offerDfq
  split
  · rename_i hroom
    obtain ⟨⟨_, hbounds⟩, hports⟩ := hs
    exact ⟨⟨by simpa using hroom, hbounds⟩, hports⟩
  · exact hs.of_eq rfl

theorem State.QueuesSound.offerUfq (hs : s.QueuesSound) (f : Frame) : (s.offerUfq f).QueuesSound := by
  unfold State.offerUfq
  split
  · rename_i hroom
    obtain ⟨⟨hdfq, _, hbounds⟩, hports⟩ := hs
    exact ⟨⟨hdfq, by simpa using hroom, hbounds⟩, hports⟩
  · exact hs.of_eq rfl

/-- A response queued, with room and the C-port UP, and its entry cached (R140, R143, R144). -/
theorem State.QueuesSound.answer (hs : s.QueuesSound) (hup : s.cPort.up = true)
    (hroom : s.responses.length < responseCapacity) (e : CacheEntry) (response : Frame)
    (h : (t.dfq, t.ufq, t.responses, t.cache, t.cPort.up, t.dPort.up, t.dPort.sending) =
      (s.dfq, s.ufq, s.responses ++ [response], cacheInsert s.cache e, s.cPort.up, s.dPort.up, s.dPort.sending)) :
    t.QueuesSound := by
  simp only [Prod.mk.injEq] at h
  obtain ⟨hdfq', hufq', hresponses', hcache', hcUp, hdUp, hdSends⟩ := h
  obtain ⟨⟨hdfq, hufq, _, _, hsources⟩, _, hd⟩ := hs
  obtain ⟨hcache, hsources, _⟩ := cacheInsert_spec s.cache e hsources
  refine ⟨⟨hdfq' ▸ hdfq, hufq' ▸ hufq, ?_, hcache' ▸ hcache, hcache' ▸ hsources⟩, fun hdown => ?_, fun hdown => ?_⟩
  · rw [hresponses', List.length_append]
    exact hroom
  · rw [hcUp, hup] at hdown
    cases hdown
  · rw [hdSends]
    exact hd (hdUp ▸ hdown)

theorem State.QueuesSound.manage (hs : s.QueuesSound) (hup : s.cPort.up = true) (source tag kind : Byte)
    (request : Option Request) : (s.manage source tag kind request).QueuesSound := by
  rcases s.manage_cases source tag kind request with ⟨e, _, heq⟩ | ⟨_, _, heq⟩ | ⟨_, hroom, heq⟩ <;> rw [heq]
  · unfold State.replay
    split
    · rename_i hroom
      exact hs.answer hup hroom e e.response rfl
    · exact hs.of_eq rfl
  · exact hs.of_eq rfl
  · have hfinish : ∀ r : Reply, s.Drains r.state → (r.finish source tag kind).QueuesSound := fun r hr => by
      rw [Reply.finish_eq]
      exact (hr.sound hs).answer (hr.cUp.trans hup) (hr.responses.length_le.trans_lt hroom) _ _ rfl
    have hcounted : s.Drains
        { s with monitor := { s.monitor with requestExecuted := s.monitor.requestExecuted + 1 } } := .of_eq rfl
    refine hfinish _ ?_
    cases request with
    | none => exact hcounted
    | some r => exact hcounted.trans (State.perform_drains _ source r)

/-! The arbiters at rest. -/

/-- The queues sound and the arbiters at rest. -/
abbrev State.AtRest (s : State) : Prop := s.QueuesBounded ∧ s.PortsSound ∧ s.Arbitrated

theorem State.AtRest.queues (hs : s.AtRest) : s.QueuesSound := ⟨hs.1, hs.2.1⟩

/-- The arbiters' act brings them to rest (R168 to R171). -/
theorem State.QueuesSound.arbitrate (hs : s.QueuesSound) : s.arbitrate.AtRest := by
  obtain ⟨hbounded, hports⟩ := s.arbitrate_drains.sound hs
  exact ⟨hbounded, hports, s.arbitrate_arbitrated⟩

/-- An event that happens under a condition, with the arbiters' acts behind it. -/
theorem State.AtRest.arbitrate_ite (hs : s.AtRest) (p : Prop) [Decidable p] (ht : p → t.QueuesSound) :
    (if p then t.arbitrate else s).AtRest := by
  split
  · rename_i hp
    exact (ht hp).arbitrate
  · exact hs

theorem State.QueuesSound.loseD (hs : s.QueuesSound) : s.loseD.QueuesSound := by
  have hlost : State.QueuesSound { s with dPort := s.dPort.lose s.dfq.length, dfq := [] } := by
    obtain ⟨⟨_, hbounds⟩, hc, _⟩ := hs
    exact ⟨⟨Nat.zero_le _, hbounds⟩, hc, fun _ => rfl⟩
  unfold State.loseD
  dsimp only
  split
  · exact (State.fallSilent_drains _).sound hlost
  · exact hlost

theorem State.QueuesSound.loseC (hs : s.QueuesSound) : s.loseC.QueuesSound := by
  obtain ⟨⟨hdfq, _, _, hcache⟩, _, hd⟩ := hs
  exact ⟨⟨hdfq, Nat.zero_le _, Nat.zero_le _, hcache⟩, fun _ => ⟨rfl, rfl⟩, hd⟩

theorem State.QueuesSound.linkReturn (hs : s.QueuesSound) :
    State.QueuesSound { s with cPort := { s.cPort with up := true } } ∧
      State.QueuesSound { s with dPort := { s.dPort with up := true } } := by
  obtain ⟨hbounded, hc, hd⟩ := hs
  exact ⟨⟨hbounded, fun hdown => (by cases hdown), hd⟩, hbounded, hc, fun hdown => (by cases hdown)⟩

theorem State.QueuesSound.complete (hs : s.QueuesSound) :
    State.QueuesSound { s with cPort := s.cPort.complete } ∧ State.QueuesSound { s with dPort := s.dPort.complete } := by
  obtain ⟨hbounded, hc, hd⟩ := hs
  exact ⟨⟨hbounded, fun hdown => ⟨rfl, (hc hdown).2⟩, hd⟩, hbounded, hc, fun _ => rfl⟩

/-- After cold reset both ports are DOWN and nothing waits (R178). -/
theorem State.coldReset_atRest (s : State) (straps : BitVec 3) : (s.coldReset straps).AtRest :=
  ⟨⟨Nat.zero_le _, Nat.zero_le _, Nat.zero_le _, Nat.zero_le _, List.nodup_nil⟩, ⟨fun _ => ⟨rfl, rfl⟩, fun _ => rfl⟩,
    rfl, rfl, fun h => absurd rfl h, fun h => absurd rfl h⟩

/-- Bytes received on the C-port while it is UP (R164, R165). -/
theorem State.AtRest.receiveC (hs : s.AtRest) (hup : s.cPort.up = true) (bytes : List Byte) :
    (s.receiveC bytes).AtRest := by
  have hcounted : s.countReceivedC.QueuesSound := hs.queues.of_eq rfl
  unfold State.receiveC
  split
  · exact hs
  · exact hs
  · exact hs
  · refine State.QueuesSound.arbitrate ?_
    unfold State.classifyC
    split
    · split
      · exact hcounted.manage hup _ _ _ _
      · exact hcounted.of_eq rfl
    · exact hcounted.offerDfq _

/-- Bytes received on the D-port (R164, R166). -/
theorem State.AtRest.receiveD (hs : s.AtRest) (bytes : List Byte) : (s.receiveD bytes).AtRest := by
  unfold State.receiveD
  split
  · exact hs
  · exact hs
  · exact State.QueuesSound.arbitrate (hs.queues.of_eq rfl)
  · have hcounted : s.signOfLife.countReceivedD.QueuesSound := hs.queues.of_eq rfl
    refine State.QueuesSound.arbitrate (State.QueuesSound.offerUfq ?_ _)
    split
    · exact (State.observe_drains _ _).sound hcounted
    · exact hcounted

theorem State.AtRest.departure (hs : s.AtRest) {row : Instr} (hrow : row ∈ departureRows)
    (h : Machine.exec row s = .next t) : t.AtRest := by
  rcases exec_departure s hrow with ⟨_, heq⟩ | ⟨_, heq⟩ | heq <;> rw [heq] at h <;> cases h
  · exact (s.leaveD_drains.sound hs.queues).arbitrate
  · exact (s.leaveC_drains.sound hs.queues).arbitrate
  · exact hs

/-- Every command leaves the arbiters at rest where they are at rest before it, the queue of commands without it. -/
theorem State.AtRest.exec (hs : s.AtRest) (i : Instr) (h : Machine.exec i s = .next t) : t.AtRest := by
  cases hr : i.request? with
  | some held =>
    obtain ⟨source, tag, r⟩ := held
    rw [exec_request s hr] at h
    cases h
    have hcounted : s.countReceivedC.QueuesSound := hs.queues.of_eq rfl
    exact hs.arbitrate_ite _ fun hup => hcounted.manage hup source tag _ _
  | none =>
    cases i with
    | coldReset straps => cases h; exact s.coldReset_atRest straps
    | linkLossD => cases h; exact hs.arbitrate_ite _ fun _ => hs.queues.loseD
    | linkLossC => cases h; exact hs.arbitrate_ite _ fun _ => hs.queues.loseC
    | linkReturn port =>
      cases h
      cases port with
      | cPort => exact hs.queues.linkReturn.1.arbitrate
      | dPort => exact hs.queues.linkReturn.2.arbitrate
    | cPortReceipt bytes =>
      cases h
      split
      · rename_i hup
        exact hs.receiveC hup bytes
      · exact hs
    | dPortReceipt bytes =>
      cases h
      split
      · exact hs.receiveD bytes
      · exact hs
    | transmissionComplete port =>
      cases h
      cases port with
      | cPort => exact hs.arbitrate_ite _ fun _ => hs.queues.complete.1
      | dPort => exact hs.arbitrate_ite _ fun _ => hs.queues.complete.2
    | silenceExpiry => cases h; exact hs.arbitrate_ite _ fun _ => s.fallSilent_drains.sound hs.queues
    | retransmitExpiry => cases h; exact hs.arbitrate_ite _ fun _ => hs.queues.of_eq rfl
    | leaseExpiry => cases h; exact hs.arbitrate_ite _ fun _ => s.expireLease_drains.sound hs.queues
    | judgedDeparture | dPortDeparture | injectedDeparture | responseDeparture | reportDeparture | ufqDeparture =>
      exact hs.departure (by decide) h
    | _ => simp [Instr.request?] at hr

/-- A row that waits in a queue behind another command goes on waiting when that is taken. -/
theorem waits_taken {i row : Instr} {rest claims behind : List Instr} (h : i :: rest = claims ++ row :: behind)
    (hi : row ≠ i) : ∃ claims', rest = claims' ++ row :: behind ∧ claims' ⊆ claims := by
  cases claims with
  | nil => exact absurd (List.cons.inj h).1.symm hi
  | cons c claims => exact ⟨claims, (List.cons.inj h).2, List.subset_cons_self c claims⟩

/-- With the front command taken the arbiters are still at rest, unless it is the row of a departure that stands. -/
theorem State.AtRest.taken {i : Instr} {rest : List Instr} (hs : s.AtRest) (hp : s.pending = i :: rest)
    (hd : s.dRow ≠ some i) (hc : s.cRow ≠ some i) : State.AtRest { s with pending := rest } := by
  obtain ⟨hbounded, hports, hdSelected, hcSelected, hdHeld, hcHeld⟩ := hs
  refine ⟨hbounded, hports, hdSelected, hcSelected, fun hstands => ?_, fun hstands => ?_⟩
  · obtain ⟨row, claims, behind, hrow, hpending, hclaims⟩ := s.dHeld_iff.1 (hdHeld hstands)
    obtain ⟨claims', hrest, hsub⟩ := waits_taken (hp.symm.trans hpending) fun hi => hd (hi ▸ hrow)
    exact (State.dHeld_iff _).2 ⟨row, claims', behind, hrow, hrest, fun c hc => hclaims c (hsub hc)⟩
  · obtain ⟨row, claims, behind, hrow, hpending, hclaims⟩ := s.cHeld_iff.1 (hcHeld hstands)
    obtain ⟨claims', hrest, hsub⟩ := waits_taken (hp.symm.trans hpending) fun hi => hc (hi ▸ hrow)
    exact (State.cHeld_iff _).2 ⟨row, claims', behind, hrow, hrest, fun c hc => hclaims c (hsub hc)⟩

/-- Settles O54: every event that can bring an arbiter's conditions about ends with the arbiters' act; every other leaves
their conditions alone, and the command it takes from the queue is not a row that a departure waits for. -/
theorem stepKeepsQueuesAndPorts : Obligations.StepKeepsQueuesAndPorts := by
  intro s t hbounded hports ha h
  have hs : s.AtRest := ⟨hbounded, hports, ha⟩
  unfold step at h
  split at h
  · rcases s.idle_cases with heq | ⟨i, _, n, heq⟩ <;> rw [heq] at h
    · cases h
      exact hs
    · have hcounted : State.AtRest { s with freeCount := n } := hs
      exact hcounted.exec i h
  · rename_i i rest hp
    have htaken : State.QueuesSound { s with pending := rest } := hs.queues
    by_cases hd : s.dRow = some i
    · rw [exec_dRow { s with pending := rest } hd] at h
      cases h
      exact ((State.leaveD_drains _).sound htaken).arbitrate
    by_cases hc : s.cRow = some i
    · rw [exec_cRow { s with pending := rest } hc] at h
      cases h
      exact ((State.leaveC_drains _).sound htaken).arbitrate
    exact (hs.taken hp hd hc).exec i h

end

end Sys2Proof.Machine

/-! SUPPORT. What a delivered request comes to (R139 to R148, R165): a frame that carries it, a repeat, a full response
queue, and the authority check. -/

namespace Sys2Proof.Machine

section
variable (s : State)

/-! A frame on the C-port. -/

/-- A valid frame received on the C-port (R164, R165). -/
theorem execCPortReceipt_valid {bytes : List Byte} {f : Frame} (hup : s.cPort.up = true)
    (hf : checkFrame bytes = .valid f) :
    exec (.cPortReceipt bytes) s = .next (s.countReceivedC.classifyC f).arbitrate := by
  rw [execCPortReceipt_up s bytes hup, State.receiveC, hf]

/-- A frame for another station is forwarded (R165, R167). -/
theorem State.classifyC_forwards {f : Frame} (hd : f.destination ≠ s.ownAddress) : s.classifyC f = s.offerDfq f :=
  if_neg hd

/-- A frame to the L16 that is no request (R165). -/
theorem State.classifyC_misaddressed {f : Frame} (hd : f.destination = s.ownAddress)
    (hk : f.kind ≠ Frame.requestKind) : s.classifyC f = { s with misaddressed := s.misaddressed + 1 } := by
  rw [State.classifyC, if_pos hd, if_neg hk]

/-- A frame that carries a request to the L16, well formed or malformed (R139, R141, R165). -/
theorem State.classifyC_request {f : Frame} (hd : f.destination = s.ownAddress) (hk : f.kind = Frame.requestKind) :
    s.classifyC f = s.manage f.source f.sequence (requestKindByte f.payload) (decodeRequest f.payload) := by
  rw [State.classifyC, if_pos hd, if_pos hk]

theorem State.offerDfq_room (f : Frame) (hroom : s.dfq.length < forwardCapacity) :
    s.offerDfq f = { s with dfq := s.dfq ++ [f] } := if_pos hroom

theorem State.offerDfq_full (f : Frame) (hfull : forwardCapacity ≤ s.dfq.length) :
    s.offerDfq f = { s with cPort := { s.cPort with ingressFull := s.cPort.ingressFull + 1 } } :=
  if_neg (Nat.not_lt.2 hfull)

/-- A request row with the C-port UP: the frame counted, its request handled, the arbiters' acts (R165). -/
theorem exec_request_up {i : Instr} {source tag : Byte} {r : Request} (h : i.request? = some (source, tag, r))
    (hup : s.cPort.up = true) :
    exec i s = .next (s.countReceivedC.manage source tag r.code (some r)).arbitrate := by
  rw [exec_request s h, State.receiveRequest, if_pos hup]

/-! The three ends of a request. -/

section
variable {source tag : Byte} (kind : Byte) (request : Option Request)

theorem State.manage_repeats {e : CacheEntry} (h : s.cached source tag = some e) :
    s.manage source tag kind request = s.replay e := by
  rw [State.manage, h]

theorem State.manage_executes (h : s.cached source tag = none) (hroom : s.responses.length < responseCapacity) :
    s.manage source tag kind request = s.executeRequest source tag kind request := by
  rw [State.manage, h]
  exact if_pos hroom

theorem State.manage_drops (h : s.cached source tag = none) (hfull : responseCapacity ≤ s.responses.length) :
    s.manage source tag kind request =
      { s with monitor := { s.monitor with requestDropped := s.monitor.requestDropped + 1 } } := by
  rw [State.manage, h]
  exact if_neg (Nat.not_lt.2 hfull)

theorem State.replay_room (e : CacheEntry) (hroom : s.responses.length < responseCapacity) : s.replay e =
    { s with
      responses := s.responses ++ [e.response]
      cache := cacheInsert s.cache e
      monitor := { s.monitor with replay := s.monitor.replay + 1 } } := if_pos hroom

theorem State.replay_full (e : CacheEntry) (hfull : responseCapacity ≤ s.responses.length) : s.replay e =
    { s with monitor := { s.monitor with replayDropped := s.monitor.replayDropped + 1 } } :=
  if_neg (Nat.not_lt.2 hfull)

/-- A repeat received with room: the cached response once more, and the entry in front (R143, R144). -/
theorem State.received_repeat {e : CacheEntry} (h : s.cached source tag = some e)
    (hroom : s.responses.length < responseCapacity) : s.countReceivedC.manage source tag kind request =
      { s with
        cPort := { s.cPort with received := s.cPort.received + 1 }
        monitor := { s.monitor with replay := s.monitor.replay + 1 }
        responses := s.responses ++ [e.response]
        cache := cacheInsert s.cache e } := by
  rw [s.countReceivedC.manage_repeats kind request h, s.countReceivedC.replay_room e hroom]
  rfl

/-- A malformed request that is executed is answered BAD_REQUEST and has no other effect (R141). -/
theorem State.received_malformed (h : s.Deliverable source tag) :
    (s.countReceivedC.manage source tag kind none).arbitrate = s.answered source tag kind .badRequest [] := by
  obtain ⟨_, hnew, hroom⟩ := h
  rw [s.countReceivedC.manage_executes kind none hnew hroom]
  exact s.answer_finish source tag kind .badRequest []

end

/-- The request-kind byte that a response repeats (R139). -/
theorem requestKindByte_eq (payload : List Byte) : requestKindByte payload = payload.headD 0 := by
  cases payload <;> rfl

/-! The authority check. -/

section
variable {source : Byte} (act : Session → Reply)

theorem State.underSession_free (h : s.session = none) : s.underSession source act = s.answer .noSession := by
  simp only [State.underSession, h]

theorem State.underSession_foreign {session : Session} (h : s.session = some session) (hne : session.holder ≠ source) :
    s.underSession source act = s.answer .held := by
  simp only [State.underSession, h, if_neg hne]

end

/-- The requests of R147's table are performed under the authority check. -/
theorem State.perform_holderOnly (source : Byte) {r : Request} (h : r.holderOnly = true) :
    ∃ act, s.perform source r = s.underSession source act := by
  cases r with
  | readProfile bank _ | readMap bank | readPolicy bank =>
    cases bank with
    | active => cases h
    | shadow => exact ⟨_, rfl⟩
  | writeProfile _ _ | clearProfile _ | writeMap _ | writePolicy _ | commit | closeSession | unlockChannel _
    | warmRestart => exact ⟨_, rfl⟩
  | identify | readChannel _ | readCounters _ _ | openSession | ackReports _ => cases h

end

/-- Settles O14, by the destination and the kind of the frame. -/
theorem cPortReceiptForwardsDownstream : Obligations.CPortReceiptForwardsDownstream := by
  intro s bytes f hup hf
  rw [execCPortReceipt_valid s hup hf]
  refine ⟨fun hd hroom => ?_, fun hd hfull => ?_, fun hd hk => ?_, fun hd hk hm hdeliverable => ?_⟩
  · rw [s.countReceivedC.classifyC_forwards hd, s.countReceivedC.offerDfq_room f hroom]
    rfl
  · rw [s.countReceivedC.classifyC_forwards hd, s.countReceivedC.offerDfq_full f hfull]
    rfl
  · rw [s.countReceivedC.classifyC_misaddressed hd hk]
    rfl
  · rw [s.countReceivedC.classifyC_request hd hk, hm, s.received_malformed _ hdeliverable, requestKindByte_eq]

/-- Settles O45: of the three ends of a request, an execution and a replay need a place in the response queue. -/
theorem fullResponseQueueDropsRequests : Obligations.FullResponseQueueDropsRequests := by
  intro s i source tag r h hup hfull
  rw [exec_request_up s h hup]
  refine ⟨fun hnew => ?_, fun hcached => ?_⟩
  · rw [s.countReceivedC.manage_drops r.code (some r) hnew hfull]
    rfl
  · obtain ⟨e, he⟩ := Option.ne_none_iff_exists'.1 hcached
    rw [s.countReceivedC.manage_repeats r.code (some r) he, s.countReceivedC.replay_full e hfull]
    rfl

/-- Settles O43: the authority check turns the request away before anything else is looked at. -/
theorem authorityIsCheckedFirst : Obligations.AuthorityIsCheckedFirst := by
  intro s i source tag r h hr hd
  obtain ⟨act, hperform⟩ := s.counted.perform_holderOnly source hr
  refine ⟨fun hfree => exec_answered h rfl hd ?_, fun session hs hne => exec_answered h rfl hd ?_⟩
  · rw [hperform, s.counted.underSession_free act hfree]
  · rw [hperform, s.counted.underSession_foreign act hs hne]

/-- Settles O42: the steps of R160 are fields set, but for the pass over the channels. -/
theorem warmRestartClearsTheBookkeeping : Obligations.WarmRestartClearsTheBookkeeping := by
  intro s source tag session hd hh
  obtain ⟨channels, heq, hch⟩ := State.restartChannels_spec { s.counted with session := none }
  refine ⟨channels, hch, exec_answered rfl rfl hd ?_⟩
  rw [State.perform, State.doWarmRestart, s.counted_underSession source _ session hh, State.restart, heq]
  rfl

/-! Repeats. -/

section
variable {s : State}

/-- The entry of a source and tag is the first that has both (R140, R143). -/
theorem State.cached_eq {source tag : Byte} {response : Frame} {before after : List CacheEntry}
    (hcache : s.cache = before ++ ⟨source, tag, response⟩ :: after)
    (hbefore : ∀ e ∈ before, e.source ≠ source ∨ e.tag ≠ tag) :
    s.cached source tag = some ⟨source, tag, response⟩ := by
  have hnone : before.find? (fun e => e.source == source && e.tag == tag) = none :=
    List.find?_eq_none.2 fun e he => by simpa [imp_iff_not_or] using hbefore e he
  rw [State.cached, hcache, List.find?_append, hnone]
  simp

/-- An entry just inserted stands where an insertion puts it (R144). -/
theorem cacheInsert_idem (cache : List CacheEntry) (e : CacheEntry) :
    cacheInsert (cacheInsert cache e) e = cacheInsert cache e := by
  have hothers : ∀ x ∈ (cache.filter fun x => x.source != e.source).take 3, (x.source != e.source) = true :=
    fun x hx => (List.mem_filter.1 (List.mem_of_mem_take hx)).2
  simp [cacheInsert, cacheCapacity, List.filter_eq_self.2 hothers]

/-- What an execution leaves of its answer: the entry in front of the cache, the response in its queue, and the C-port's
link as it was (R140, R144). -/
theorem State.executed_spec (s : State) (source tag : Byte) (r : Request) :
    ∃ cache response, ((s.perform source r).finish source tag r.code).cache =
        cacheInsert cache ⟨source, tag, response⟩ ∧
      response ∈ ((s.perform source r).finish source tag r.code).responses ∧
      ((s.perform source r).finish source tag r.code).cPort.up = s.cPort.up := by
  rw [Reply.finish_eq]
  exact ⟨_, _, rfl, by simp, (s.perform_drains source r).cUp⟩

/-- A response that waits goes on waiting, or is in transmission, when a departure has been taken (R145, R171). -/
theorem State.leaveC_response {response : Frame} (h : response ∈ s.responses ∨ s.cPort.sending = some response) :
    response ∈ s.leaveC.responses ∨ s.leaveC.cPort.sending = some response := by
  unfold State.leaveC
  cases hs : s.cStanding with
  | none => exact h
  | some source =>
    obtain ⟨_, hidle, _⟩ := s.cStanding_spec hs
    have hwaits := h.resolve_right (by simp [hidle])
    cases source with
    | response =>
      obtain ⟨f, rest, hresponses⟩ := List.exists_cons_of_ne_nil (List.ne_nil_of_mem hwaits)
      rw [hresponses, List.mem_cons] at hwaits
      simp only [State.departResponse, hresponses]
      exact hwaits.symm.imp_right fun hf => congrArg some hf.symm
    | report =>
      dsimp only
      unfold State.departReport
      split <;> exact .inl hwaits
    | forward =>
      dsimp only
      unfold State.departForward
      split <;> exact .inl hwaits

theorem State.arbitrate_response {response : Frame} (h : response ∈ s.responses) :
    response ∈ s.arbitrate.responses ∨ s.arbitrate.cPort.sending = some response := by
  refine s.arbitrate_induct (fun t => response ∈ t.responses ∨ t.cPort.sending = some response) (.inl h)
    (fun t ht => ?_) (fun _ ht => State.leaveC_response ht) (fun _ _ ht => ht) (fun _ ht => ht)
  obtain ⟨_, _, _, _, _, _, _, _, heq, _⟩ := t.leaveD_frame
  rw [heq]
  exact ht

end

/-- Settles O44: a row and a frame of the cached source and tag both come to the replay, and the entry of a request that
has been executed stands in front of the cache. -/
theorem retriedRequestIsReplayed : Obligations.RetriedRequestIsReplayed := by
  constructor
  · intro s source tag response before after hup hroom hcache hbefore replayed
    have hreplay : ∀ kind request,
        (s.countReceivedC.manage source tag kind request).arbitrate = replayed := fun kind request => by
      rw [s.received_repeat kind request (State.cached_eq hcache hbefore) hroom, cacheInsert_eq]
    refine ⟨fun i r h => ?_, ?_⟩
    · rw [exec_request_up s h hup, hreplay]
    · rintro bytes f hf hk hdestination rfl rfl
      rw [execCPortReceipt_valid s hup hf, s.countReceivedC.classifyC_request hdestination hk, hreplay]
  · intro s t i source tag r h hd ht hroom
    obtain ⟨cache, response, hcache, hqueued, hlink⟩ := s.counted.executed_spec source tag r
    rw [exec_delivered s h hd] at ht
    cases ht
    generalize (s.counted.perform source r).finish source tag r.code = u at hcache hqueued hlink hroom
    have hinserted : u.arbitrate.cache = cacheInsert cache ⟨source, tag, response⟩ := u.arbitrate_cache.trans hcache
    have hup : u.arbitrate.cPort.up = true := u.arbitrate_drains.cUp.trans (hlink.trans hd.1)
    have hfront : u.arbitrate.cached source tag = some ⟨source, tag, response⟩ :=
      State.cached_eq (before := []) hinserted (by simp)
    refine ⟨response, congrArg List.head? hinserted, State.arbitrate_response hqueued, ?_⟩
    rw [exec_request_up _ h hup, State.received_repeat _ r.code (some r) hfront hroom, hinserted, cacheInsert_idem,
      ← hinserted]

end Sys2Proof.Machine

/-! SUPPORT. Request payloads (R141, R183, 10.4): a payload decodes to a request exactly where it is that request's
payload, and a request row is the receipt of its frame (log 8). -/

namespace Sys2Proof

/-! Selectors and flags. -/

theorem byte_toNat_lt (b : Byte) : b.toNat < 256 := b.isLt

theorem BankName.ofCode_iff (b : Byte) (bank : BankName) : BankName.ofCode b = some bank ↔ b = bank.code := by
  unfold BankName.ofCode
  cases bank <;> split_ifs <;> simp_all [BankName.code]

theorem CounterGroup.ofCode_iff (b : Byte) (group : CounterGroup) :
    CounterGroup.ofCode b = some group ↔ b = group.code := by
  unfold CounterGroup.ofCode
  cases group <;> split_ifs <;> simp_all [CounterGroup.code]

theorem flagOfByte_iff (b : Byte) (flag : Bool) : flagOfByte b = some flag ↔ b = flagByte flag := by
  unfold flagOfByte
  cases flag <;> split_ifs <;> simp_all [flagByte]

/-! Profile records. -/

/-- The motion group in front of `rest`, if it is declared present (10.4, R183). -/
theorem readMotion_iff (present : Bool) (bytes rest : List Byte) (m : Option MotionGroup) :
    readMotion present bytes = some (m, rest) ↔
      bytes = motionBytes m ++ rest ∧ m.isSome = present ∧ (m.map MotionGroup.fits).getD true = true := by
  constructor
  · intro h
    unfold readMotion at h
    split at h
    · cases h
      exact ⟨rfl, rfl, rfl⟩
    · cases h
      simp [motionBytes, bytes2_nat2, MotionGroup.fits, nat2_lt]
    · cases h
  · rintro ⟨rfl, rfl, hfits⟩
    cases m with
    | none => rfl
    | some m =>
      simp only [Option.map_some, Option.getD_some, MotionGroup.fits, Bool.and_eq_true, decide_eq_true_eq,
        and_assoc] at hfits
      obtain ⟨hpeak, hvalley, hreactionMin, hreactionMax, htravelMin, htravelMax⟩ := hfits
      simp [motionBytes, bytes2, readMotion, nat2_bytes2, *]

/-- The measure group with nothing behind it, if it is declared present (10.4, R183). -/
theorem readMeasure_iff (present : Bool) (bytes : List Byte) (g : Option MeasureGroup) :
    readMeasure present bytes = some g ↔
      bytes = measureBytes g ∧ g.isSome = present ∧ (g.map MeasureGroup.fits).getD true = true := by
  constructor
  · intro h
    unfold readMeasure at h
    split at h
    · cases h
      exact ⟨rfl, rfl, rfl⟩
    · cases h
      simp [measureBytes, bytes4_nat4, MeasureGroup.fits, nat4_lt, byte_toNat_lt]
    · cases h
  · rintro ⟨rfl, rfl, hfits⟩
    cases g with
    | none => rfl
    | some g =>
      simp only [Option.map_some, Option.getD_some, MeasureGroup.fits, Bool.and_eq_true, decide_eq_true_eq,
        and_assoc] at hfits
      obtain ⟨hwindow, hrMin, hrMax⟩ := hfits
      simp [measureBytes, bytes4, readMeasure, nat4_bytes4, Nat.mod_eq_of_lt, *]

/-- A record's core and the groups that its two flags declare (10.4, R183). -/
theorem readProfile_iff (motion measure : Bool) (bytes : List Byte) (p : Profile) :
    readProfile motion measure bytes = some p ↔
      bytes = p.fieldBytes ∧ p.motion.isSome = motion ∧ p.measure.isSome = measure ∧ p.fits = true := by
  constructor
  · intro h
    unfold readProfile at h
    split at h
    · split at h
      · rename_i hmotion
        obtain ⟨g, hmeasure, rfl⟩ := Option.map_eq_some_iff.1 h
        obtain ⟨rfl, rfl, hmotionFits⟩ := (readMotion_iff _ _ _ _).1 hmotion
        obtain ⟨rfl, rfl, hmeasureFits⟩ := (readMeasure_iff _ _ _).1 hmeasure
        simp [Profile.fieldBytes, bytes2_nat2, Profile.fits, Profile.coreFits, nat2_lt, byte_toNat_lt, hmotionFits,
          hmeasureFits]
      · cases h
    · cases h
  · rintro ⟨rfl, rfl, rfl, hfits⟩
    simp only [Profile.fits, Profile.coreFits, Bool.and_eq_true, decide_eq_true_eq, and_assoc] at hfits
    obtain ⟨hopen, hopenDeadline, hhit, hhitDeadline, hoc, hsettle, hgap, hlock, hmotion, hmeasure⟩ := hfits
    have hreadMotion := (readMotion_iff _ _ (measureBytes p.measure) p.motion).2 ⟨rfl, rfl, hmotion⟩
    have hreadMeasure := (readMeasure_iff _ _ p.measure).2 ⟨rfl, rfl, hmeasure⟩
    simp [Profile.fieldBytes, bytes2, readProfile, nat2_bytes2, Nat.mod_eq_of_lt, *]

/-! Requests. -/

/-- The codes behind 10H are no request's (10.4). -/
theorem decodeRequest_unknown {kind : Byte} (h : 17 ≤ kind.toNat) (arguments : List Byte) :
    decodeRequest (kind :: arguments) = none := by
  obtain ⟨n, hn⟩ := Nat.exists_eq_add_of_le' h
  unfold decodeRequest
  dsimp only
  rw [hn]
  rfl

/-- READ_COUNTERS, by its two selectors. -/
theorem decodeRequest_readCounters (group clear : Byte) : decodeRequest [0x06#8, group, clear] =
    (CounterGroup.ofCode group).bind fun g => (flagOfByte clear).map (.readCounters g) := by
  change (match CounterGroup.ofCode group, flagOfByte clear with
    | some g, some c => some (Request.readCounters g c)
    | _, _ => none) = _
  cases CounterGroup.ofCode group <;> cases flagOfByte clear <;> rfl

/-- WRITE_PROFILE, by its two flags. -/
theorem decodeRequest_writeProfile (slot motion measure : Byte) (fields : List Byte) :
    decodeRequest (0x08#8 :: slot :: motion :: measure :: fields) =
      (flagOfByte motion).bind fun m => (flagOfByte measure).bind fun g =>
        (readProfile m g fields).map (Request.writeProfile slot) := by
  change (match flagOfByte motion, flagOfByte measure with
    | some m, some g => (readProfile m g fields).map (Request.writeProfile slot)
    | _, _ => none) = _
  cases flagOfByte motion <;> cases flagOfByte measure <;> rfl

/-- WRITE_MAP, by the number of its entries. -/
theorem decodeRequest_writeMap {entries : List Byte} {r : Request} (h : decodeRequest (0x0A#8 :: entries) = some r) :
    ∃ map : Vector Byte 16, entries = map.toList ∧ r = .writeMap map := by
  by_cases hlength : entries.length = 16
  · have hread : decodeRequest (0x0A#8 :: entries) = some (.writeMap ⟨entries.toArray, by simpa using hlength⟩) :=
      dif_pos hlength
    exact ⟨_, by simp, Option.some.inj (h.symm.trans hread)⟩
  · have hread : decodeRequest (0x0A#8 :: entries) = none := dif_neg hlength
    cases hread.symm.trans h

/-- What decodes is the payload of the request it decodes to, whose numbers fit (R141, R183). -/
theorem payload_of_decodeRequest {kind : Byte} {arguments : List Byte} {r : Request}
    (h : decodeRequest (kind :: arguments) = some r) : kind :: arguments = r.payload ∧ r.wellFormed = true := by
  obtain ⟨k, hlt, rfl⟩ : ∃ k < 256, kind = BitVec.ofNat 8 k := ⟨kind.toNat, kind.isLt, by simp⟩
  match k, hlt, arguments, h with
  | 1, _, [], h | 7, _, [], h | 12, _, [], h | 13, _, [], h | 16, _, [], h
  | 2, _, [_], h | 9, _, [_], h | 14, _, [_], h =>
    cases h
    exact ⟨rfl, rfl⟩
  | 3, _, [b, _], h | 4, _, [b], h | 5, _, [b], h =>
    obtain ⟨bank, hbank, rfl⟩ := Option.map_eq_some_iff.1 h
    rw [(BankName.ofCode_iff b bank).1 hbank]
    exact ⟨rfl, rfl⟩
  | 6, _, [g, c], h =>
    obtain ⟨group, hgroup, h⟩ := Option.bind_eq_some_iff.1 ((decodeRequest_readCounters g c).symm.trans h)
    obtain ⟨clear, hclear, rfl⟩ := Option.map_eq_some_iff.1 h
    rw [(CounterGroup.ofCode_iff g group).1 hgroup, (flagOfByte_iff c clear).1 hclear]
    exact ⟨rfl, rfl⟩
  | 8, _, slot :: m :: g :: fields, h =>
    obtain ⟨motion, hmotion, h⟩ := Option.bind_eq_some_iff.1 ((decodeRequest_writeProfile slot m g fields).symm.trans h)
    obtain ⟨measure, hmeasure, h⟩ := Option.bind_eq_some_iff.1 h
    obtain ⟨p, hp, rfl⟩ := Option.map_eq_some_iff.1 h
    obtain ⟨rfl, rfl, rfl, hfits⟩ := (readProfile_iff motion measure fields p).1 hp
    rw [(flagOfByte_iff m _).1 hmotion, (flagOfByte_iff g _).1 hmeasure]
    exact ⟨rfl, hfits⟩
  | 10, _, entries, h =>
    obtain ⟨map, rfl, rfl⟩ := decodeRequest_writeMap h
    exact ⟨rfl, rfl⟩
  | 11, _, [_, _, _, _, _, _, _, _, _], h =>
    cases h
    simp [Request.payload, Request.code, Request.arguments, Policy.bytes, bytes2_nat2, Request.wellFormed, Policy.fits,
      nat2_lt, byte_toNat_lt]
  | 15, _, [hi, lo], h =>
    cases h
    refine ⟨?_, rfl⟩
    rw [Request.payload, Request.arguments, bytes2_half2]
    rfl
  | n + 17, hlt, _, h =>
    have hunknown : 17 ≤ (BitVec.ofNat 8 (n + 17)).toNat := by
      rw [BitVec.toNat_ofNat, Nat.mod_eq_of_lt hlt]
      omega
    cases (decodeRequest_unknown hunknown _).symm.trans h

/-- The payload of a request whose numbers fit decodes to the request (R183). -/
theorem decodeRequest_payload {r : Request} (h : r.wellFormed = true) : decodeRequest r.payload = some r := by
  cases r with
  | readProfile bank _ | readMap bank | readPolicy bank => cases bank <;> rfl
  | readCounters group clear => cases group <;> cases clear <;> rfl
  | writeProfile slot p =>
    have hmotion := (flagOfByte_iff (flagByte p.motion.isSome) _).2 rfl
    have hmeasure := (flagOfByte_iff (flagByte p.measure.isSome) _).2 rfl
    refine (decodeRequest_writeProfile slot _ _ p.fieldBytes).trans ?_
    rw [hmotion, hmeasure, Option.bind_some, Option.bind_some, (readProfile_iff _ _ _ p).2 ⟨rfl, rfl, rfl, h⟩]
    rfl
  | writeMap entries => exact dif_pos Vector.length_toList
  | writePolicy p =>
    simp only [Request.wellFormed, Policy.fits, Bool.and_eq_true, decide_eq_true_eq, and_assoc] at h
    obtain ⟨hretransmit, hsilence, hlow, hok⟩ := h
    refine Eq.trans (b := some (.writePolicy ⟨_, _, _, _, _, _⟩)) rfl ?_
    simp only [nat2_bytes2, BitVec.toNat_ofNat, Nat.reducePow, Nat.mod_eq_of_lt, *]
  | ackReports number => exact congrArg (fun n => some (Request.ackReports n)) (half2_bytes2 number)
  | identify | openSession | commit | closeSession | warmRestart => rfl
  | readChannel _ | clearProfile _ | unlockChannel _ => rfl

/-- A payload decodes to a request exactly where it is the request's payload and the request's numbers fit (R141,
R183). -/
theorem decodeRequest_iff (payload : List Byte) (r : Request) :
    decodeRequest payload = some r ↔ payload = r.payload ∧ r.wellFormed = true := by
  constructor
  · intro h
    cases payload with
    | nil => cases h
    | cons kind arguments => exact payload_of_decodeRequest h
  · rintro ⟨rfl, hw⟩
    exact decodeRequest_payload hw

end Sys2Proof

namespace Sys2Proof.Machine

/-- Settles O46: the payloads kind by kind, and what decodes is the payload of a request whose numbers fit. -/
theorem requestsDecodeExactly : Obligations.RequestsDecodeExactly := by
  refine ⟨fun r => ?_, fun r hw => (decodeRequest_iff r.payload r).2 ⟨rfl, hw⟩,
    fun payload r h => (decodeRequest_iff payload r).1 h⟩
  intro one two four flag bank
  cases r with
  | readProfile bank _ | readMap bank | readPolicy bank => cases bank <;> rfl
  | readCounters group _ => cases group <;> rfl
  | writeProfile slot p =>
    rw [Request.payload, Request.arguments, Profile.bytes_eq]
    rfl
  | _ => rfl

/-- Settles O47: the bytes are a valid frame to the L16 that carries the request, which decodes to it. -/
theorem requestRowsAreReceipts : Obligations.RequestRowsAreReceipts := by
  intro s i source tag r h hw body crc
  have hw' : r.wellFormed = true := by simpa only [Instr.wellFormed, h] using hw
  have hlength := Laws.RequestCoded.payload_length r
  have hsize : (BitVec.ofNat 8 r.payload.length).toNat = r.payload.length := by
    rw [BitVec.toNat_ofNat, Nat.mod_eq_of_lt (by omega)]
  have hvalid : checkFrame (body ++ [BitVec.ofNat 8 (crc / 256), BitVec.ofNat 8 crc]) =
      .valid ⟨Frame.requestKind, s.ownAddress, source, tag, r.payload, crc16 body⟩ := by
    refine (checkFrame_sized 0x04 s.ownAddress source tag _ r.payload _ _ hlength).trans ?_
    rw [half2_bytes2]
    exact (if_neg (not_not.2 rfl)).trans (if_neg (by omega))
  cases hup : s.cPort.up with
  | false => rw [execCPortReceipt_down s _ hup, exec_request s h, s.receiveRequest_down source tag r hup]
  | true =>
    rw [execCPortReceipt_valid s hup hvalid, s.countReceivedC.classifyC_request rfl rfl, exec_request_up s h hup,
      decodeRequest_payload hw']
    rfl

end Sys2Proof.Machine

/-! SUPPORT. The frame codec (R164, R180): the register of the check sequence, and the bytes that the checks at receipt
accept. -/

namespace Sys2Proof

/-! The check sequence. -/

/-- One step of the register, by the bit shifted out (R180). -/
theorem crcBit_eq (register : Half) (bit : Bool) : crcBit register bit =
    if register.getLsbD 15 ≠ bit then (register <<< 1) ^^^ 0x1021 else register <<< 1 := by
  simp only [crcBit, BitVec.msb_eq_getLsbD_last, Nat.add_one_sub_one, bne_iff_ne]
  rfl

/-- The bytes go through the register one after another (R180). -/
theorem crcFrom_eq_foldl (bytes : List Byte) (n : Nat) : crcFrom bytes n = bytes.foldl crcByte (BitVec.ofNat 16 n) := by
  induction bytes generalizing n with
  | nil => simp [crcFrom]
  | cons b rest ih =>
    have hstep : crcFrom (b :: rest) n = crcFrom rest (crcByte (BitVec.ofNat 16 n) b).toNat := by
      cases n <;> rfl
    rw [hstep, ih, BitVec.ofNat_toNat, BitVec.setWidth_eq, List.foldl_cons]

/-- The bits of all the bytes go through the register one after another, from FFFFH (R180). -/
theorem crc16_eq_foldl (bytes : List Byte) : crc16 bytes =
    (bytes.flatMap fun b => [7, 6, 5, 4, 3, 2, 1, 0].map fun k => b.getLsbD k).foldl crcBit 0xFFFF := by
  unfold crc16
  simp only [crcFrom_eq_foldl, List.foldl_flatMap, List.foldl_map]
  rfl

/-! The checks at receipt. -/

/-- Bytes enough for a frame are a header, a payload and a check sequence (10.1). -/
theorem exists_frame_parts {bytes : List Byte} (h : 7 ≤ bytes.length) :
    ∃ (kind destination source sequence size : Byte) (payload : List Byte) (hi lo : Byte),
      bytes = (kind :: destination :: source :: sequence :: size :: payload) ++ [hi, lo] := by
  obtain ⟨front, lo, rfl⟩ := (List.eq_nil_or_concat' bytes).resolve_left (by rintro rfl; simp at h)
  obtain ⟨body, hi, rfl⟩ := (List.eq_nil_or_concat' front).resolve_left (by rintro rfl; simp at h)
  match body, h with
  | kind :: destination :: source :: sequence :: size :: payload, _ =>
    exact ⟨kind, destination, source, sequence, size, payload, hi, lo, by simp⟩

end Sys2Proof

namespace Sys2Proof.Machine

/-- An intact frame of a right size passes the checks in its own bytes (R164). -/
theorem checkFrame_bytes {f : Frame} (hlength : f.payload.length ≤ 96) (hcrc : frameIntact f) :
    checkFrame f.bytes = .valid f := by
  have hsize : (BitVec.ofNat 8 f.payload.length).toNat = f.payload.length := by
    rw [BitVec.toNat_ofNat, Nat.mod_eq_of_lt (by omega)]
  refine (checkFrame_sized _ _ _ _ _ f.payload _ _ hlength).trans ?_
  rw [half2_bytes2]
  exact (if_neg (not_not.2 hcrc.symm)).trans (if_neg (by omega))

/-- What passes the checks is the bytes of the frame that they find (R164). -/
theorem bytes_of_checkFrame {bytes : List Byte} {f : Frame} (h : checkFrame bytes = .valid f) :
    bytes = f.bytes ∧ f.payload.length ≤ 96 := by
  have hsized : 7 ≤ bytes.length ∧ bytes.length ≤ 103 := by
    by_contra hsize
    rw [checkFrame_badSize (by omega)] at h
    cases h
  obtain ⟨kind, destination, source, sequence, size, payload, hi, lo, rfl⟩ := exists_frame_parts hsized.1
  have hlength : payload.length ≤ 96 := by
    simp only [List.length_append, List.length_cons, List.length_nil] at hsized
    omega
  rw [checkFrame_sized kind destination source sequence size payload hi lo hlength] at h
  split_ifs at h with _ hfield
  cases h
  have hsize : BitVec.ofNat 8 payload.length = size := by
    rw [show payload.length = size.toNat by omega, BitVec.ofNat_toNat, BitVec.setWidth_eq]
  exact ⟨by rw [Frame.bytes, Frame.body, hsize, bytes2_half2], hlength⟩

/-- The checks find a valid frame exactly in the bytes of an intact frame of a right size (R164). -/
theorem checkFrame_valid_iff (bytes : List Byte) (f : Frame) :
    checkFrame bytes = .valid f ↔ bytes = f.bytes ∧ f.payload.length ≤ 96 ∧ frameIntact f := by
  constructor
  · intro h
    obtain ⟨hbytes, hlength⟩ := bytes_of_checkFrame h
    exact ⟨hbytes, hlength, checkFrame_intact h⟩
  · rintro ⟨rfl, hlength, hcrc⟩
    exact checkFrame_bytes hlength hcrc

/-- Settles O13: the register takes the bits one after another, and the checks find exactly the intact frames. -/
theorem checkFrameReadsExactlyTheFrames : Obligations.CheckFrameReadsExactlyTheFrames := by
  refine ⟨fun bytes => ?_, fun f => ⟨rfl, rfl, fun bytes => checkFrame_valid_iff bytes f⟩⟩
  rw [crc16_eq_foldl, funext₂ crcBit_eq]

end Sys2Proof.Machine

/-! SUPPORT. The links (R172, R175, R176): the loss of the C-port's, a return, and a completion. -/

namespace Sys2Proof.Machine

section
variable (s : State)

theorem execLinkLossC_up (hup : s.cPort.up = true) : exec .linkLossC s = .next s.loseC.arbitrate :=
  congrArg Host.Outcome.next (if_pos hup)

/-! A free port, as a return finds it. -/

/-- The D-port, free and UP, with nothing selected before: an injection comes before the DFQ head (R168). -/
theorem State.dStanding_unselected (hr : s.dPort.ready = true) (hn : s.dSelected = none) : s.dStanding =
    if s.injectionOffered then some .injection else if s.dfq = [] then none else some .queueHead := by
  rw [s.dStanding_fresh hr hn, State.dSelect]
  simp only [List.isEmpty_iff]

/-- The C-port, free and UP, with nothing selected before and no response: a report or the UFQ head by the marker
(R170). -/
theorem State.cStanding_unselected (hr : s.cPort.ready = true) (hn : s.cSelected = none) (hempty : s.responses = []) :
    s.cStanding =
      if s.report.offer.isSome ∧ (s.ufq = [] ∨ s.marker = .forward) then some .report
      else if s.ufq = [] then none else some .forward := by
  rw [s.cStanding_fresh hr hn, s.cSelect_eq, if_neg (not_not.2 hempty)]
  simp only [Option.isSome_iff_ne_none, ite_not]

/-! A completion. -/

theorem execTransmissionComplete_d (h : s.dPort.sending.isSome) :
    exec (.transmissionComplete .dPort) s = .next (State.arbitrate { s with dPort := s.dPort.complete }) :=
  congrArg Host.Outcome.next (if_pos h)

theorem execTransmissionComplete_c (h : s.cPort.sending.isSome) :
    exec (.transmissionComplete .cPort) s = .next (State.arbitrate { s with cPort := s.cPort.complete }) :=
  congrArg Host.Outcome.next (if_pos h)

theorem execTransmissionComplete_d_free (h : s.dPort.sending = none) :
    exec (.transmissionComplete .dPort) s = .next s :=
  congrArg Host.Outcome.next (if_neg (by simp [h]))

theorem execTransmissionComplete_c_free (h : s.cPort.sending = none) :
    exec (.transmissionComplete .cPort) s = .next s :=
  congrArg Host.Outcome.next (if_neg (by simp [h]))

end

/-- Settles O6: the four steps are the loss of the port and fields set. -/
theorem linkLossCFlushesAndKeeps : Obligations.LinkLossCFlushesAndKeeps := by
  intro s hup
  rw [execLinkLossC_up s hup, State.loseC, Port.lose_eq]

/-- Settles O8: the port that has returned is free where nothing is in transmission, and the arbiter's own choice then
stands. -/
theorem linkReturnMakesThePortUp : Obligations.LinkReturnMakesThePortUp := by
  refine ⟨fun s => ⟨_, rfl, rfl, fun hsending hn => ?_⟩, fun s => ⟨_, rfl, rfl, fun hsending hn hempty => ?_⟩⟩
  · exact State.dStanding_unselected _ ((Port.ready_iff _).2 ⟨rfl, hsending⟩) hn
  · exact State.cStanding_unselected _ ((Port.ready_iff _).2 ⟨rfl, hsending⟩) hn hempty

/-- Settles O11, by whether the port transmits. -/
theorem completionFreesTheTransmitter : Obligations.CompletionFreesTheTransmitter := by
  intro s
  refine ⟨fun f hf => ?_, fun f hf => ?_, execTransmissionComplete_d_free s, execTransmissionComplete_c_free s⟩
  · exact execTransmissionComplete_d s (Option.isSome_of_eq_some hf)
  · exact execTransmissionComplete_c s (Option.isSome_of_eq_some hf)

end Sys2Proof.Machine

/-! SUPPORT. The queue of waiting commands: what it is filled with comes from outside, and no event of the part touches
it (log entries 17 and 18). -/

namespace Sys2Proof.Machine

/-! What the parts of an event leave of the queue. -/

section
variable (s : State)

@[simp] theorem State.leaveD_pending : s.leaveD.pending = s.pending := by
  obtain ⟨_, _, _, _, _, _, _, _, heq, _⟩ := s.leaveD_frame
  rw [heq]

@[simp] theorem State.leaveC_pending : s.leaveC.pending = s.pending := by
  obtain ⟨_, _, _, _, _, _, heq, _⟩ := s.leaveC_frame
  rw [heq]

@[simp] theorem State.fallSilent_pending : s.fallSilent.pending = s.pending := by
  obtain ⟨_, _, heq⟩ := s.fallSilent_frame
  rw [heq]

@[simp] theorem State.observe_pending (payload : List Byte) : (s.observe payload).pending = s.pending := by
  obtain ⟨_, _, _, _, _, _, _, heq⟩ := s.observe_frame payload
  rw [heq]

@[simp] theorem State.signOfLife_pending : s.signOfLife.pending = s.pending := rfl

@[simp] theorem State.offerDfq_pending (f : Frame) : (s.offerDfq f).pending = s.pending := by
  unfold State.offerDfq
  split <;> rfl

@[simp] theorem State.offerUfq_pending (f : Frame) : (s.offerUfq f).pending = s.pending := by
  rw [State.offerUfq_eq]

@[simp] theorem State.expireLease_pending : s.expireLease.pending = s.pending := by
  unfold State.expireLease
  split <;> rfl

/-- A delivered request leaves the D-port's side as it is, and the queue with it (R140). -/
@[simp] theorem State.manage_pending (source tag kind : Byte) (request : Option Request) :
    (s.manage source tag kind request).pending = s.pending := by
  obtain ⟨_, _, _, hpending, _⟩ := by
    simpa only [Prod.mk.injEq] using (State.manage_dQuiet (s := s) source tag kind request).side
  exact hpending

@[simp] theorem State.loseC_pending : s.loseC.pending = s.pending := rfl

@[simp] theorem State.loseD_pending : s.loseD.pending = s.pending := by
  unfold State.loseD
  dsimp only
  split
  · exact State.fallSilent_pending _
  · rfl

@[simp] theorem State.classifyC_pending (f : Frame) : (s.classifyC f).pending = s.pending := by
  unfold State.classifyC
  split
  · split
    · exact s.manage_pending _ _ _ _
    · rfl
  · exact s.offerDfq_pending f

@[simp] theorem State.classifyD_pending (f : Frame) : (s.classifyD f).pending = s.pending := by
  unfold State.classifyD
  rw [State.offerUfq_pending]
  split
  · exact s.observe_pending f.payload
  · rfl

@[simp] theorem State.receiveC_pending (bytes : List Byte) : (s.receiveC bytes).pending = s.pending := by
  unfold State.receiveC
  split
  · rfl
  · rfl
  · rfl
  · simp

@[simp] theorem State.receiveD_pending (bytes : List Byte) : (s.receiveD bytes).pending = s.pending := by
  unfold State.receiveD
  split
  · rfl
  · rfl
  · simp
  · simp

@[simp] theorem State.receiveRequest_pending (source tag : Byte) (r : Request) :
    (s.receiveRequest source tag r).pending = s.pending := by
  unfold State.receiveRequest
  split
  · simp
  · rfl

end

section
variable {s t : State}

/-- An event that happens under a condition leaves the queue alone where the event does. -/
theorem State.pending_ite (p : Prop) [Decidable p] (h : t.pending = s.pending) :
    (if p then t else s).pending = s.pending := by
  split
  · exact h
  · rfl

/-! Every command. -/

/-- No arm of the dispatch is a fault or a refusal (log entry 18). -/
theorem exec_next (i : Instr) (s : State) : ∃ t : State, exec i s = .next t := by
  cases i <;> exact ⟨_, rfl⟩

theorem exec_departure_pending {row : Instr} (hrow : row ∈ departureRows) (h : exec row s = .next t) :
    t.pending = s.pending := by
  rcases exec_departure s hrow with ⟨_, heq⟩ | ⟨_, heq⟩ | heq <;> rw [heq] at h <;> cases h
  · simp
  · simp
  · rfl

/-- A command reads the queue's rest at most (log entry 3). -/
theorem exec_pending (i : Instr) (h : exec i s = .next t) : t.pending = s.pending := by
  cases hr : i.request? with
  | some held =>
    obtain ⟨source, tag, r⟩ := held
    rw [exec_request s hr] at h
    cases h
    exact s.receiveRequest_pending source tag r
  | none =>
    cases i with
    | coldReset straps => cases h; rfl
    | linkLossD => cases h; exact State.pending_ite _ (by simp)
    | linkLossC => cases h; exact State.pending_ite _ (by simp)
    | linkReturn port => cases h; cases port <;> exact State.arbitrate_pending _
    | cPortReceipt bytes => cases h; exact State.pending_ite _ (s.receiveC_pending bytes)
    | dPortReceipt bytes => cases h; exact State.pending_ite _ (s.receiveD_pending bytes)
    | judgedDeparture | dPortDeparture | injectedDeparture | responseDeparture | reportDeparture | ufqDeparture =>
      exact exec_departure_pending (by decide) h
    | transmissionComplete port => cases h; cases port <;> exact State.pending_ite _ (State.arbitrate_pending _)
    | silenceExpiry => cases h; exact State.pending_ite _ (by simp)
    | retransmitExpiry => cases h; exact State.pending_ite _ (by simp)
    | leaseExpiry => cases h; exact State.pending_ite _ (by simp)
    | _ => simp [Instr.request?] at hr

end

/-- Settles O2: each arm of the dispatch answers a next state, and no part of an event writes the queue. -/
theorem everyCommandAnswersANextState : Obligations.EveryCommandAnswersANextState := by
  intro i s
  obtain ⟨t, h⟩ := exec_next i s
  exact ⟨t, h, exec_pending i h⟩

/-- Settles O1: the front command is taken from the queue, and the rest is what the queue becomes. -/
theorem stepRunsFrontCommand : Obligations.StepRunsFrontCommand := fun _ _ _ => rfl

end Sys2Proof.Machine
